-- ==== Sys2Proof/Word.lean ====
section
/-!
DEFINITION. The widths of the block's values (00_scope.md rule R6).

All values are unsigned and bit 0 is the least significant bit of every value (00_scope.md rule R7).
The block has no bytes and no memory (20_memory.md rules R43, R50), so there is no byte type here.
-/

namespace Sys2Proof

/-- The constant structural part of the header, frame bits 39:32 (30_encoding.md rule R57). -/
abbrev PrefixBits := BitVec 8

/-- The remote identity, 16 bits, used whole (30_encoding.md rule R58). -/
abbrev RemoteId := BitVec 16

/-- The port `channel`, 8 bits before masking (10_state.md rule R10). -/
abbrev ChannelPort := BitVec 8

/-- The channel after masking, frame bits 15:12 (30_encoding.md rule R59). -/
abbrev Channel := BitVec 4

/-- A command code, frame bits 7:0 (30_encoding.md rule R61). -/
abbrev Code := BitVec 8

/-- The header `HDR`, frame bits 39:12 (10_state.md rule R13). -/
abbrev Header := BitVec 28

/-- A frame, 40 bits, bit 39 first on the air (30_encoding.md rule R55). -/
abbrev Frame := BitVec 40

/-- The command selector on port `cmd` (30_encoding.md rule R68). -/
abbrev Selector := BitVec 3

/-- The three operand ports of a request as one bundle of wires: `cmd` in bits 2:0, `remote_id` in bits 18:3,
`channel` in bits 26:19 (DESIGN CHOICE, notes/assumptions/5.md: the spec fixes bits 2:0 only). -/
abbrev RequestWord := BitVec 27

end Sys2Proof
end

