-- ==== Sys2Proof/Syntax.lean ====
section
/-!
DEFINITION. The encoded elements of the block: one constructor for each row of spec/opcode_table.json.

The block has no instruction set in the usual sense (00_scope.md rule R1). Its opcode table lists what is encoded
(INDEX.md, "Files"): the eight values of the command selector, the six frames, the three pulse symbols and the three
constant waits. The formats are disjoint alphabets: which one applies at a tick is settled by the sequencer position,
never by the bits (`Format` below).
-/

namespace Sys2Proof

/-- The encodings of spec/opcode_table.json, by the row's "format". -/
inductive Format where
  /-- `CMDSEL3`: the request on the host ports, sampled at an acceptance tick (30_encoding.md rule R68). -/
  | cmdsel
  /-- `FRAME40`: a frame (30_encoding.md rule R55). -/
  | frame
  /-- `SYMBOL_SYNC`: the first of the 41 symbols of a transmission (30_encoding.md rule R66). -/
  | symbolSync
  /-- `SYMBOL_BIT`: one of the 40 bit symbols (30_encoding.md rule R65). -/
  | symbolBit
  /-- `WAIT_GAP`: after every transmission (30_encoding.md rule R67). -/
  | waitGap
  /-- `WAIT_INTERPRESS`: step 1 of a gesture (30_encoding.md rule R67). -/
  | waitInterpress
  /-- `WAIT_FINAL`: step 3 of a gesture (30_encoding.md rule R67). -/
  | waitFinal
  deriving DecidableEq, Repr

/-- The encoded elements, in the order of spec/opcode_table.json. -/
inductive Instr where
  /-- `UP`, selector 0 (43_commands.md rule R116). -/
  | up (rid : RemoteId) (ch : ChannelPort)
  /-- `DOWN`, selector 1 (43_commands.md rule R117). -/
  | down (rid : RemoteId) (ch : ChannelPort)
  /-- `STOP`, selector 2 (43_commands.md rule R118). -/
  | stop (rid : RemoteId) (ch : ChannelPort)
  /-- `LEARN`, selector 3 (43_commands.md rule R119). -/
  | learn (rid : RemoteId) (ch : ChannelPort)
  /-- `PAIR`, selector 4 (44_gestures.md rule R126). -/
  | pair (rid : RemoteId) (ch : ChannelPort)
  /-- `CHDIR`, selector 5 (44_gestures.md rule R127). -/
  | chdir (rid : RemoteId) (ch : ChannelPort)
  /-- `RESERVED6`, selector 6: names no command (30_encoding.md rule R69). -/
  | reserved6
  /-- `RESERVED7`, selector 7: names no command (30_encoding.md rule R69). -/
  | reserved7
  /-- `FRAME.UP.PRIMARY`, code 0x11 (43_commands.md rule R116). -/
  | frameUpPrimary (p : PrefixBits) (rid : RemoteId) (ch : Channel)
  /-- `FRAME.UP.CONFIRM`, code 0x1E (43_commands.md rule R116). -/
  | frameUpConfirm (p : PrefixBits) (rid : RemoteId) (ch : Channel)
  /-- `FRAME.DOWN.PRIMARY`, code 0x33 (43_commands.md rule R117). -/
  | frameDownPrimary (p : PrefixBits) (rid : RemoteId) (ch : Channel)
  /-- `FRAME.DOWN.CONFIRM`, code 0x3C (43_commands.md rule R117). -/
  | frameDownConfirm (p : PrefixBits) (rid : RemoteId) (ch : Channel)
  /-- `FRAME.STOP`, code 0x55 (43_commands.md rule R118). -/
  | frameStop (p : PrefixBits) (rid : RemoteId) (ch : Channel)
  /-- `FRAME.LEARN`, code 0xCC (43_commands.md rule R119). -/
  | frameLearn (p : PrefixBits) (rid : RemoteId) (ch : Channel)
  /-- `SYNC`: 4500 µs high, 1400 µs low (30_encoding.md rule R64). -/
  | sync
  /-- `BIT0`: 320 µs high, 620 µs low (30_encoding.md rule R64). -/
  | bit0
  /-- `BIT1`: 620 µs high, 320 µs low (30_encoding.md rule R64). -/
  | bit1
  /-- `GAP`: 7400 µs low (30_encoding.md rule R67). -/
  | gap
  /-- `WAIT_INTERPRESS`: 20000 µs low (30_encoding.md rule R67). -/
  | waitInterpress
  /-- `WAIT_FINAL`: 100000 µs low (30_encoding.md rule R67). -/
  | waitFinal
  deriving DecidableEq, Repr

end Sys2Proof
end

