-- ==== Sys2Proof/Decode.lean ====
section
/-!
DEFINITION. The decoders of the block's encodings, total on any bits, and the encoder (30_encoding.md).

Which format applies is given by the sequencer position, so `decode` takes it beside the bits. Bits are numbered as
spec/opcode_table.json numbers them: bit 0 is the least significant bit.
-/

namespace Sys2Proof

/-! ## Command codes (30_encoding.md rule R61) -/

/-- `CODE_UP`. -/
def codeUp : Code := 0x11#8
/-- `CODE_DOWN`. -/
def codeDown : Code := 0x33#8
/-- `CODE_STOP`. -/
def codeStop : Code := 0x55#8
/-- `CODE_LEARN`. -/
def codeLearn : Code := 0xCC#8

/-- `confirm_code(c) = (c & 0xF0) | ((c ^ 0xFF) & 0x0F)` (30_encoding.md rule R62). -/
def confirmCode (c : Code) : Code :=
  (c &&& 0xF0#8) ||| ((c ^^^ 0xFF#8) &&& 0x0F#8)

/-! ## Fields of a frame (30_encoding.md rules R55, R56, R73) -/

/-- `f[39:32]`. -/
def framePrefix (f : Frame) : PrefixBits := f.extractLsb' 32 8
/-- `f[31:16]`. -/
def frameRid (f : Frame) : RemoteId := f.extractLsb' 16 16
/-- `f[15:12]`. -/
def frameCh (f : Frame) : Channel := f.extractLsb' 12 4
/-- `f[11:8]`. -/
def frameRsv (f : Frame) : BitVec 4 := f.extractLsb' 8 4
/-- `f[7:0]`. -/
def frameCode (f : Frame) : Code := f.extractLsb' 0 8

/-! ## Decoding -/

/-- Why bits are no element of a format. -/
inductive DecodeError where
  /-- A bit is set above the format's width. -/
  | bitsAboveWidth
  /-- Frame bits 11:8 are not 0 (30_encoding.md rule R70 (a)). -/
  | reservedBitsSet
  /-- Frame bits 7:0 are none of the six codes (30_encoding.md rule R70 (b)). -/
  | unknownCode
  deriving DecidableEq, Repr

/-- The request on the host ports: selector in bits 2:0 (30_encoding.md rules R68, R69), operand ports above. Total:
every value of the three ports is a request, and selectors 6 and 7 are the reserved ones. -/
def decodeCommand (w : RequestWord) : Instr :=
  let cmd : Selector := w.extractLsb' 0 3
  let rid : RemoteId := w.extractLsb' 3 16
  let ch : ChannelPort := w.extractLsb' 19 8
  if cmd = 0#3 then .up rid ch
  else if cmd = 1#3 then .down rid ch
  else if cmd = 2#3 then .stop rid ch
  else if cmd = 3#3 then .learn rid ch
  else if cmd = 4#3 then .pair rid ch
  else if cmd = 5#3 then .chdir rid ch
  else if cmd = 6#3 then .reserved6
  else .reserved7

/-- A frame, by its low byte (30_encoding.md rule R73). -/
def decodeFrame (f : Frame) : Except DecodeError Instr :=
  if frameRsv f ≠ 0#4 then .error .reservedBitsSet
  else if frameCode f = codeUp then .ok (.frameUpPrimary (framePrefix f) (frameRid f) (frameCh f))
  else if frameCode f = confirmCode codeUp then .ok (.frameUpConfirm (framePrefix f) (frameRid f) (frameCh f))
  else if frameCode f = codeDown then .ok (.frameDownPrimary (framePrefix f) (frameRid f) (frameCh f))
  else if frameCode f = confirmCode codeDown then .ok (.frameDownConfirm (framePrefix f) (frameRid f) (frameCh f))
  else if frameCode f = codeStop then .ok (.frameStop (framePrefix f) (frameRid f) (frameCh f))
  else if frameCode f = codeLearn then .ok (.frameLearn (framePrefix f) (frameRid f) (frameCh f))
  else .error .unknownCode

/-- A frame bit of value 0 is sent as `BIT0`, one of value 1 as `BIT1` (30_encoding.md rule R65). -/
def decodeBit (b : Bool) : Instr :=
  if b then .bit1 else .bit0

/-- How many bits an element of the format has. The table gives `CMDSEL3` the 3 bits of port `cmd`; the 24 bits of
the operand ports follow them here (notes/assumptions/5.md). The symbols and waits that the position alone selects
have none. -/
def Format.width : Format → Nat
  | .cmdsel => 27
  | .frame => 40
  | .symbolSync => 0
  | .symbolBit => 1
  | .waitGap => 0
  | .waitInterpress => 0
  | .waitFinal => 0

/-- The decoder: the element that the bits `w` are in the format `fm`; rejects by name. -/
def decode (fm : Format) (w : Nat) : Except DecodeError Instr :=
  if 2 ^ fm.width ≤ w then .error .bitsAboveWidth
  else
    match fm with
    | .cmdsel => .ok (decodeCommand (BitVec.ofNat 27 w))
    | .frame => decodeFrame (BitVec.ofNat 40 w)
    | .symbolSync => .ok .sync
    | .symbolBit => .ok (decodeBit (w == 1))
    | .waitGap => .ok .gap
    | .waitInterpress => .ok .waitInterpress
    | .waitFinal => .ok .waitFinal

/-! ## Encoding -/

/-- The bundle of the three operand ports of a request (notes/assumptions/5.md). -/
def requestWord (cmd : Selector) (rid : RemoteId) (ch : ChannelPort) : RequestWord :=
  ch ++ rid ++ cmd

/-- A frame from its fields, reserved bits 0 (30_encoding.md rules R55, R56, R60). -/
def frameWord (p : PrefixBits) (rid : RemoteId) (ch : Channel) (c : Code) : Frame :=
  p ++ rid ++ ch ++ 0#4 ++ c

/-- Bits together with the format they are in. -/
structure Encoded where
  /-- The format that the position selects. -/
  format : Format
  /-- The bits, bit 0 the least significant. -/
  bits : Nat
  deriving DecidableEq, Repr

/-- The encoder. A reserved selector has no operands (spec/opcode_table.json), so its operand ports are 0 here. -/
def encode : Instr → Encoded
  | .up rid ch => ⟨.cmdsel, (requestWord 0#3 rid ch).toNat⟩
  | .down rid ch => ⟨.cmdsel, (requestWord 1#3 rid ch).toNat⟩
  | .stop rid ch => ⟨.cmdsel, (requestWord 2#3 rid ch).toNat⟩
  | .learn rid ch => ⟨.cmdsel, (requestWord 3#3 rid ch).toNat⟩
  | .pair rid ch => ⟨.cmdsel, (requestWord 4#3 rid ch).toNat⟩
  | .chdir rid ch => ⟨.cmdsel, (requestWord 5#3 rid ch).toNat⟩
  | .reserved6 => ⟨.cmdsel, (requestWord 6#3 0#16 0#8).toNat⟩
  | .reserved7 => ⟨.cmdsel, (requestWord 7#3 0#16 0#8).toNat⟩
  | .frameUpPrimary p rid ch => ⟨.frame, (frameWord p rid ch codeUp).toNat⟩
  | .frameUpConfirm p rid ch => ⟨.frame, (frameWord p rid ch (confirmCode codeUp)).toNat⟩
  | .frameDownPrimary p rid ch => ⟨.frame, (frameWord p rid ch codeDown).toNat⟩
  | .frameDownConfirm p rid ch => ⟨.frame, (frameWord p rid ch (confirmCode codeDown)).toNat⟩
  | .frameStop p rid ch => ⟨.frame, (frameWord p rid ch codeStop).toNat⟩
  | .frameLearn p rid ch => ⟨.frame, (frameWord p rid ch codeLearn).toNat⟩
  | .sync => ⟨.symbolSync, 0⟩
  | .bit0 => ⟨.symbolBit, 0⟩
  | .bit1 => ⟨.symbolBit, 1⟩
  | .gap => ⟨.waitGap, 0⟩
  | .waitInterpress => ⟨.waitInterpress, 0⟩
  | .waitFinal => ⟨.waitFinal, 0⟩

/-! ## The host's question -/

/-- The format that a number of table bits stands for. The table's formats are told apart by the sequencer position
and not by the number of bits, so this map cannot separate all of them (notes/assumptions/6.md): no bits is read as
the first zero-width row, `SYNC`; one bit is a bit symbol; 40 bits are a frame; any other number is a request. -/
def tableFormat (nbits : Nat) : Format :=
  if nbits = 0 then .symbolSync
  else if nbits = 1 then .symbolBit
  else if nbits = 40 then .frame
  else .cmdsel

/-- The instruction that the decoder reads from a table word of `nbits` bits with value `w`; none where it
refuses. -/
def decodeTableWord (nbits w : Nat) : Option Instr :=
  match decode (tableFormat nbits) w with
  | .ok i => some i
  | .error _ => none

end Sys2Proof
end

