-- ==== Sys2Proof/Config.lean ====
section
/-!
DEFINITION. The parameters of one instance of the block (00_scope.md rule R5).

"A parameter is fixed when an instance of the block is built and never changes while it runs; a model takes each as
an argument (a field of its configuration) with the default given." `exec` and `step` have types the host fixes, so
the configuration stands in State as plain data (`State.params`); no step changes it
(notes/assumptions/1.md, DESIGN CHOICE).
-/

namespace Sys2Proof

/-- The three parameters of 00_scope.md rule R5. -/
structure Config where
  /-- `PREFIX`, 8 bits. -/
  pfx : PrefixBits
  /-- `REPEAT_COUNT`, written `N`: 1 to 15. -/
  repeatCount : BitVec 4
  /-- `TICKS_PER_US`, written `T`: an integer, at least 1. -/
  ticksPerUs : Nat
  deriving DecidableEq, Repr

/-- The defaults of 00_scope.md rule R5: `PREFIX = 0x1F`, `N = 6`, `T = 1`. -/
def Config.default : Config :=
  { pfx := 0x1F#8, repeatCount := 6#4, ticksPerUs := 1 }

/-- The ranges of 00_scope.md rule R5: `N` is 1 to 15 (a 4-bit value that is not 0), `T >= 1`. A configuration
outside them is no instance of the block (93_implementation_defined.md U10: "`N = 0` is refused for the block"). -/
def Config.wf (c : Config) : Bool :=
  c.repeatCount != 0#4 && decide (1 ≤ c.ticksPerUs)

/-- A free value: the bit that `FRAME[i]` reads for an index `i` of 40 or more, where the 40-bit `FRAME` has no bit. No run
reaches such an index (10_state.md rule R34 (d); notes/assumptions/11.md). -/
opaque Config.freeFrameBit : Frame → Nat → Bool

/-- A free value: what `REP` becomes when it is decremented at 0, where the spec gives no value (42_command_composer.md rule
R104: a counter never goes below zero; 10_state.md rule R16: there is no wrap-around). No run decrements it there (10_state.md
rule R34 (e); notes/assumptions/17.md). -/
opaque Config.freeRep : BitVec 4

end Sys2Proof
end

