-- ==== Sys2Proof/Machine/State.lean ====
section
/-!
DEFINITION. The state of the block: the 13 registers of 10_state.md, the parameters of the instance, and the input
ports of the coming ticks. The block has no memory, no register file and no hidden state (10_state.md rules R12, R30,
R31).
-/

namespace Sys2Proof.Machine

/-- The register `PHASE` (10_state.md rule R23). -/
inductive Phase where
  /-- No command in progress; `start` is sampled. -/
  | idle
  /-- High time of the sync pulse. -/
  | syncHi
  /-- Low time of the sync pulse. -/
  | syncLo
  /-- High time of the pulse of bit `BITIDX`. -/
  | bitHi
  /-- Low time of the pulse of bit `BITIDX`. -/
  | bitLo
  /-- Inter-sequence gap after a transmission. -/
  | gap
  /-- A gesture's wait step. -/
  | wait
  /-- An illegal command was presented; left only by reset. -/
  | fault
  deriving DecidableEq, Repr

/-- The input ports at one tick (10_state.md rule R10). The port `clk` is the tick itself. -/
structure Ports where
  /-- `rst`, synchronous reset, active high. -/
  rst : Bool
  /-- `start`, level-sampled request. -/
  start : Bool
  /-- `cmd`, the command selector. -/
  cmd : Selector
  /-- `remote_id`. -/
  remoteId : RemoteId
  /-- `channel`, before masking. -/
  channel : ChannelPort
  deriving DecidableEq, Repr

/-- All input ports 0: 95_test_vectors.md writes "ticks not listed have `(0, 0, 0, 0, 0)`". -/
def Ports.quiet : Ports :=
  { rst := false, start := false, cmd := 0#3, remoteId := 0#16, channel := 0#8 }

/-- The state. -/
structure State where
  /-- The parameters of this instance (00_scope.md rule R5); no step changes them (notes/assumptions/1.md). -/
  params : Config
  /-- `HDR.RID`, bits 19:4 of the register `HDR` (10_state.md rule R13). -/
  hdrRid : RemoteId
  /-- `HDR.CH`, bits 3:0 of the register `HDR` (10_state.md rule R13). The field `HDR.PREFIX`, bits 27:20, is hardwired
  to the parameter (10_state.md rule R12) and so is not stored; `State.hdr` is the whole 28-bit register. -/
  hdrCh : Channel
  /-- `CODE`, 8 bits (10_state.md rule R14). -/
  code : Code
  /-- `OP`, 3 bits (10_state.md rule R17). -/
  op : Selector
  /-- `STEP`, 3 bits (10_state.md rule R18). -/
  stepIdx : BitVec 3
  /-- `PASS`, 1 bit (10_state.md rule R19). -/
  pass : Bool
  /-- `CONF`, 1 bit (10_state.md rule R20). -/
  conf : Bool
  /-- `REP`, 4 bits (10_state.md rule R21). -/
  rep : BitVec 4
  /-- `BITIDX`, 6 bits (10_state.md rule R22). -/
  bitIdx : BitVec 6
  /-- `PHASE` (10_state.md rule R23). -/
  phase : Phase
  /-- `TMR` (10_state.md rule R24). Its width depends on `T`, and 92_eei_decisions.md D20 lets a model use an unbounded
  natural; the range is an invariant (`State.Inv`, notes/assumptions/12.md). -/
  tmr : Nat
  /-- `TX`, the level driven on the pin (10_state.md rule R25). -/
  tx : Bool
  /-- `DONE` (10_state.md rule R26). -/
  done : Bool
  /-- `ERR` (10_state.md rule R27). -/
  err : Bool
  /-- The input ports of the coming ticks, the present tick first; the model's own field for the environment
  (notes/assumptions/2.md). -/
  inputs : List Ports
  deriving DecidableEq, Repr

/-- Why the machine stops with a fault. The block's one architectural fault, `IllegalCommand`, is NOT among these: its
entry is described (60_exceptions.md rule R136), so it is a next state with `PHASE = FAULT` (notes/assumptions/8.md). -/
inductive Fault where
  /-- Raised by `step` when a step of a command ends and `STEP` or `OP` points outside the step tables of 44_gestures.md
  rule R125, which give nothing there. Only in states that break 10_state.md rule R34 (g), which no run reaches. Safe:
  the model stops where the spec gives no successor (notes/assumptions/9.md). -/
  | stepTableOverrun
  deriving DecidableEq, Repr

/-- Why a step has no meaning. -/
inductive Refusal where
  /-- An instruction that has no meaning yet; no arm of `exec` answers so. Safe. -/
  | notModelled (mnemonic : String)
  /-- Raised by `step` when the parameters are outside the ranges of 00_scope.md rule R5, so that the state is of no
  instance of the block (93_implementation_defined.md U10: "refused for the block"). Safe (notes/assumptions/10.md). -/
  | notAnInstance
  deriving DecidableEq, Repr

/-- The reset state of an instance with parameters `c` (10_state.md rule R32, 70_reset_and_hazards.md rule R161), with the
ports of the coming ticks `ins`. -/
def State.resetOf (c : Config) (ins : List Ports) : State :=
  { params := c
    hdrRid := 0#16
    hdrCh := 0#4
    code := 0x00#8
    op := 0#3
    stepIdx := 0#3
    pass := false
    conf := false
    rep := 0#4
    bitIdx := 0#6
    phase := .idle
    tmr := 0
    tx := false
    done := false
    err := false
    inputs := ins }

/-- The machine right after reset, with the default parameters and no host input. -/
def State.reset : State :=
  State.resetOf Config.default []

end Sys2Proof.Machine
end

