-- ==== Sys2Proof/Machine/Operands.lean ====
section
/-!
DEFINITION. The frame composer: header, frame and confirmation frame, as pure functions (42_command_composer.md
rules R100 to R104) and as the views of the state that read them (10_state.md rules R13, R15).
-/

namespace Sys2Proof.Machine

/-- `channel & 0xF`, as the 4-bit field it becomes (30_encoding.md rule R59). -/
def maskChannel (ch : ChannelPort) : Channel :=
  (ch &&& 0x0F#8).setWidth 4

/-- `build_header(rid, ch) = PREFIX :: rid :: (ch & 0xF)` (42_command_composer.md rule R100). -/
def buildHeader (c : Config) (rid : RemoteId) (ch : ChannelPort) : Header :=
  c.pfx ++ rid ++ maskChannel ch

/-- `build_frame(h, c) = h :: 0b0000 :: c` (42_command_composer.md rule R101). -/
def buildFrame (h : Header) (c : Code) : Frame :=
  h ++ 0#4 ++ c

/-- `confirm(f) = f[39:4] :: (f[3:0] ^ 0xF)` (42_command_composer.md rule R102). -/
def confirm (f : Frame) : Frame :=
  f.extractLsb' 4 36 ++ (f.extractLsb' 0 4 ^^^ 0xF#4)

/-- `ones(f)`, the number of 1 bits (41_frame_transmitter.md rule R92). -/
def ones (f : Frame) : Nat :=
  (List.range 40).countP fun i => f.getLsbD i

/-- The register `HDR`: the hardwired field `HDR.PREFIX` above the two written fields (10_state.md rules R12, R13). -/
def State.hdr (s : State) : Header :=
  s.params.pfx ++ s.hdrRid ++ s.hdrCh

/-- `code_eff` of 10_state.md rule R15. -/
def State.codeEff (s : State) : Code :=
  if s.pass then confirmCode s.code else s.code

/-- `FRAME`, combinational: `HDR :: 0b0000 :: code_eff` (10_state.md rule R15), recomputed whenever it is read
(20_memory.md rule R49). -/
def State.frame (s : State) : Frame :=
  buildFrame s.hdr s.codeEff

/-- `f[i]` for a frame `f` and an index that the 6-bit `BITIDX` can hold. Only bits 0 to 39 exist and `BITIDX` never leaves
that range (10_state.md rules R22, R34 (d)); the bit read above it is a free value (notes/assumptions/11.md). -/
def frameBitAt (f : Frame) (i : Nat) : Bool :=
  if i < 40 then f.getLsbD i else Config.freeFrameBit f i

/-- `FRAME[BITIDX]`. -/
def State.frameBit (s : State) : Bool :=
  frameBitAt s.frame s.bitIdx.toNat

end Sys2Proof.Machine
end

