-- ==== Sys2Proof/Machine/Flags.lean ====
section
/-!
DEFINITION. The flags: `needs_conf`, the status outputs and the conditions the sequencer tests (10_state.md rules R11,
R25 to R28; 30_encoding.md rule R63). There are no arithmetic condition codes.
-/

namespace Sys2Proof.Machine

/-- `needs_conf(c) = (c = 0x11 or c = 0x33)` (30_encoding.md rule R63, 70_reset_and_hazards.md rule R165). -/
def needsConf (c : Code) : Bool :=
  c == codeUp || c == codeDown

/-- `busy = PHASE not in {IDLE, FAULT}` (10_state.md rule R11). -/
def State.busy (s : State) : Bool :=
  s.phase != .idle && s.phase != .fault

/-- The output ports of 10_state.md rule R11. -/
structure Outputs where
  /-- The transmit pin. -/
  tx : Bool
  /-- A command is being carried out. -/
  busy : Bool
  /-- The last accepted command has completed. -/
  done : Bool
  /-- An illegal command selector was presented. -/
  err : Bool
  deriving DecidableEq, Repr

/-- The outputs are a function of the state alone (10_state.md rule R11: a Moore machine). -/
def State.outputs (s : State) : Outputs :=
  { tx := s.tx, busy := s.busy, done := s.done, err := s.err }

/-- The phases in which the pin is high (10_state.md rule R25). -/
def Phase.high : Phase → Bool
  | .idle => false
  | .syncHi => true
  | .syncLo => false
  | .bitHi => true
  | .bitLo => false
  | .gap => false
  | .wait => false
  | .fault => false

end Sys2Proof.Machine
end

