-- ==== Sys2Proof/Machine/Timing.lean ====
section
/-!
DEFINITION. The protocol's durations, in microseconds, the timer value of a phase and the decrement of `REP` (00_scope.md rule R5,
30_encoding.md rules R64, R67, 70_reset_and_hazards.md rule R165).
-/

namespace Sys2Proof.Machine

/-- High time of the sync pulse. -/
def syncHiUs : Nat := 4500
/-- Low time of the sync pulse. -/
def syncLoUs : Nat := 1400
/-- `hi(b)`, the high time of a bit pulse. -/
def bitHiUs (b : Bool) : Nat := if b then 620 else 320
/-- `lo(b)`, the low time of a bit pulse. -/
def bitLoUs (b : Bool) : Nat := if b then 320 else 620
/-- `GAP_US`, the inter-sequence gap. -/
def gapUs : Nat := 7400
/-- `PRESS_GAP_US`, the inter-press gap. -/
def interpressUs : Nat := 20000
/-- `FINAL_GAP_US`, the final gap. -/
def finalUs : Nat := 100000

/-- `load(d) = d * T - 1`, the timer value for a phase of `d` microseconds. It is used with `d >= 320` and `T >= 1` only
(70_reset_and_hazards.md rule R166, note (d)), so the subtraction on naturals is never cut off. -/
def load (c : Config) (d : Nat) : Nat :=
  d * c.ticksPerUs - 1

/-- `REP - 1`. Below 0 it has no value in the spec (42_command_composer.md rule R104, 10_state.md rule R16), so there it is a free
value: the model's choice, in states that no run reaches (notes/assumptions/17.md). -/
def decRep (r : BitVec 4) : BitVec 4 :=
  if r = 0#4 then Config.freeRep else r - 1#4

end Sys2Proof.Machine
end

