-- ==== Sys2Proof/Machine/Ops.lean ====
section
/-!
DEFINITION. The named operations over the registers: the pin write, the entry of a phase, the parts of acceptance and of
a SEND step, completion, the fault `IllegalCommand` and the reset that is the only way out of it
(40_pulse_driver.md, 60_exceptions.md, 70_reset_and_hazards.md).

All right-hand sides of one tick read the state before it (70_reset_and_hazards.md rule R164); where operations are
chained below, a later one reads no register that an earlier one writes, unless its rule says so.
-/

namespace Sys2Proof.Machine

/-- The ports at the present tick. When the host's list has run out they are quiet (notes/assumptions/2.md). -/
def State.port (s : State) : Ports :=
  s.inputs.headD Ports.quiet

/-- The tick is over for the ports: the next tick's values become the present ones. -/
def State.consume (s : State) : State :=
  { s with inputs := s.inputs.tail }

/-- The three operand ports as one bundle, as the decoder takes them. -/
def Ports.word (p : Ports) : RequestWord :=
  requestWord p.cmd p.remoteId p.channel

/-- `PinWrite(l)`: `TX <- l` (40_pulse_driver.md rule R80). -/
def pinWrite (l : Bool) (s : State) : State :=
  { s with tx := l }

/-- A phase of `d` microseconds begins: `PHASE <- ph; TMR <- load(d)` (10_state.md rule R24). -/
def enterPhase (ph : Phase) (d : Nat) (s : State) : State :=
  { s with phase := ph, tmr := load s.params d }

/-- One tick of a running phase: `TMR <- TMR - 1`. -/
def countDown (s : State) : State :=
  { s with tmr := s.tmr - 1 }

/-- `start_frame()`: the sync preamble begins (70_reset_and_hazards.md rule R166). -/
def startFrame (s : State) : State :=
  enterPhase .syncHi syncHiUs (pinWrite true s)

/-- The pulse of a bit of value `b` begins with its high time (40_pulse_driver.md rule R83). -/
def startBit (b : Bool) (s : State) : State :=
  enterPhase .bitHi (bitHiUs b) (pinWrite true s)

/-- The low time of the sync pulse begins (40_pulse_driver.md rule R83). -/
def syncLow (s : State) : State :=
  enterPhase .syncLo syncLoUs (pinWrite false s)

/-- The low time of the pulse of bit `BITIDX` begins (40_pulse_driver.md rule R83). -/
def bitLow (s : State) : State :=
  enterPhase .bitLo (bitLoUs s.frameBit) (pinWrite false s)

/-- `delay(d)` begins in phase `ph`, without a pin write (40_pulse_driver.md rule R86). -/
def startDelay (ph : Phase) (d : Nat) (s : State) : State :=
  enterPhase ph d s

/-- Acceptance of selector `sel`: `OP`, `HDR` (with `build_header`), `DONE` and `STEP` (70_reset_and_hazards.md rule
R166). -/
def latchRequest (sel : Selector) (rid : RemoteId) (ch : ChannelPort) (s : State) : State :=
  { s with op := sel, hdrRid := rid, hdrCh := maskChannel ch, done := false, stepIdx := 0#3 }

/-- A SEND step with code `c` begins: `CODE`, `CONF`, `PASS`, `REP` (70_reset_and_hazards.md rule R166, `begin_step`). -/
def loadSend (c : Code) (s : State) : State :=
  { s with code := c, conf := needsConf c, pass := false, rep := s.params.repeatCount }

/-- A command is issued whose first step is `SEND(c)`. It is accepted in `IDLE` (70_reset_and_hazards.md rule R168); in
any other phase the request is ignored, neither queued nor remembered (60_exceptions.md rules R138, R142;
notes/assumptions/14.md). -/
def issueCommand (sel : Selector) (c : Code) (rid : RemoteId) (ch : ChannelPort) (s : State) : State :=
  if s.phase = .idle then startFrame (loadSend c (latchRequest sel rid ch s)) else s

/-- The confirmation pass of a SEND step begins: `PASS <- 1; REP <- N` (42_command_composer.md rule R109). -/
def beginConfirmPass (s : State) : State :=
  { s with pass := true, rep := s.params.repeatCount }

/-- The frame with code `c` (primary if `pass` is 0, confirmation if 1) and the header fields `rid`, `ch` becomes the value
of `FRAME`, and its transmission begins with the sync pulse (41_frame_transmitter.md rules R90, R95). The header's top
field is hardwired to `PREFIX` (10_state.md rule R12), so no operand writes it (notes/assumptions/7.md). That a frame row loads these
registers is the model's reading; where a step begins a frame they hold the values already (notes/assumptions/18.md). -/
def transmit (c : Code) (pass : Bool) (rid : RemoteId) (ch : Channel) (s : State) : State :=
  startFrame { s with hdrRid := rid, hdrCh := ch, code := c, pass := pass }

/-- Completion (70_reset_and_hazards.md rule R166, `advance`): `TMR` is 0 and `TX` is 0 already, so neither is written. -/
def complete (s : State) : State :=
  { s with phase := .idle, done := true, stepIdx := 0#3, pass := false, conf := false, rep := 0#4, bitIdx := 0#6 }

/-- `raise Fault(IllegalCommand, cmd)`: fault entry is these four register writes (60_exceptions.md rules R136, R137,
R145; notes/assumptions/8.md). -/
def raiseIllegalCommand (sel : Selector) (s : State) : State :=
  { s with err := true, op := sel, done := false, phase := .fault }

/-- A reserved selector is presented: it faults in `IDLE` (60_exceptions.md rule R136) and is ignored in any other phase
(60_exceptions.md rules R138, R142; notes/assumptions/14.md). -/
def issueReserved (sel : Selector) (s : State) : State :=
  if s.phase = .idle then raiseIllegalCommand sel s else s

/-- Reset: every register takes its reset value, whatever the state; the only way out of `FAULT`
(60_exceptions.md rules R141, R146, 70_reset_and_hazards.md rule R160). -/
def applyReset (s : State) : State :=
  State.resetOf s.params s.inputs

end Sys2Proof.Machine
end

