-- ==== Sys2Proof/Machine/Commands.lean ====
section
/-!
DEFINITION. The meanings of the four primitive commands (43_commands.md). A meaning is what the block does at the tick at
which the request is presented with `start = 1` and `rst = 0`; the ticks after it are the sequencer's
(Machine/Sequencer.lean), and the whole trace is `elementTrace` (Machine/Trace.lean).
-/

namespace Sys2Proof.Machine

/-- `UP rid, ch` (43_commands.md rules R115, R116): selector 0, step table `SEND(0x11)`. -/
def execUp (rid : RemoteId) (ch : ChannelPort) (s : State) : Host.Outcome State Fault Refusal :=
  .next (issueCommand 0#3 codeUp rid ch s)

/-- `DOWN rid, ch` (43_commands.md rules R115, R117): selector 1, step table `SEND(0x33)`. -/
def execDown (rid : RemoteId) (ch : ChannelPort) (s : State) : Host.Outcome State Fault Refusal :=
  .next (issueCommand 1#3 codeDown rid ch s)

/-- `STOP rid, ch` (43_commands.md rules R115, R118): selector 2, step table `SEND(0x55)`. -/
def execStop (rid : RemoteId) (ch : ChannelPort) (s : State) : Host.Outcome State Fault Refusal :=
  .next (issueCommand 2#3 codeStop rid ch s)

/-- `LEARN rid, ch` (43_commands.md rules R115, R119): selector 3, step table `SEND(0xCC)`. -/
def execLearn (rid : RemoteId) (ch : ChannelPort) (s : State) : Host.Outcome State Fault Refusal :=
  .next (issueCommand 3#3 codeLearn rid ch s)

end Sys2Proof.Machine
end

