-- ==== Sys2Proof/Machine/Frames.lean ====
section
/-!
DEFINITION. The meanings of the six frames: the tick at which the transmission of that frame begins (41_frame_transmitter.md
rules R90, R95; notes/assumptions/4.md). `FRAME` takes the frame's value and the sync pulse starts; `REP` and `CONF` belong
to the SEND step around the transmission, not to the frame (41_frame_transmitter.md rule R96), and are left alone.

`CODE` holds the primary code also for a confirmation frame; the confirmation code comes from `PASS` (10_state.md rules R14,
R15). The operand `p` is the frame's top byte, which the header's hardwired field supplies (10_state.md rule R12,
notes/assumptions/7.md).
-/

namespace Sys2Proof.Machine

/-- `FRAME.UP.PRIMARY` (43_commands.md rule R116, 41_frame_transmitter.md rule R90). -/
def execFrameUpPrimary (_p : PrefixBits) (rid : RemoteId) (ch : Channel) (s : State) : Host.Outcome State Fault Refusal :=
  .next (transmit codeUp false rid ch s)

/-- `FRAME.UP.CONFIRM` (43_commands.md rule R116, 41_frame_transmitter.md rule R90). -/
def execFrameUpConfirm (_p : PrefixBits) (rid : RemoteId) (ch : Channel) (s : State) : Host.Outcome State Fault Refusal :=
  .next (transmit codeUp true rid ch s)

/-- `FRAME.DOWN.PRIMARY` (43_commands.md rule R117, 41_frame_transmitter.md rule R90). -/
def execFrameDownPrimary (_p : PrefixBits) (rid : RemoteId) (ch : Channel) (s : State) : Host.Outcome State Fault Refusal :=
  .next (transmit codeDown false rid ch s)

/-- `FRAME.DOWN.CONFIRM` (43_commands.md rule R117, 41_frame_transmitter.md rule R90). -/
def execFrameDownConfirm (_p : PrefixBits) (rid : RemoteId) (ch : Channel) (s : State) : Host.Outcome State Fault Refusal :=
  .next (transmit codeDown true rid ch s)

/-- `FRAME.STOP` (43_commands.md rule R118, 41_frame_transmitter.md rule R90). -/
def execFrameStop (_p : PrefixBits) (rid : RemoteId) (ch : Channel) (s : State) : Host.Outcome State Fault Refusal :=
  .next (transmit codeStop false rid ch s)

/-- `FRAME.LEARN` (43_commands.md rule R119, 41_frame_transmitter.md rule R90). -/
def execFrameLearn (_p : PrefixBits) (rid : RemoteId) (ch : Channel) (s : State) : Host.Outcome State Fault Refusal :=
  .next (transmit codeLearn false rid ch s)

end Sys2Proof.Machine
end

