-- ==== Sys2Proof/Machine/Gestures.lean ====
section
/-!
DEFINITION. The meanings of the two composite gestures (44_gestures.md): acceptance, and the first of their five steps,
`SEND(0xCC)`. The later steps are the sequencer's, from the step tables (Machine/StepTable.lean).
-/

namespace Sys2Proof.Machine

/-- `PAIR rid, ch` (44_gestures.md rule R126): selector 4. -/
def execPair (rid : RemoteId) (ch : ChannelPort) (s : State) : Host.Outcome State Fault Refusal :=
  .next (issueCommand 4#3 codeLearn rid ch s)

/-- `CHDIR rid, ch` (44_gestures.md rule R127): selector 5. -/
def execChdir (rid : RemoteId) (ch : ChannelPort) (s : State) : Host.Outcome State Fault Refusal :=
  .next (issueCommand 5#3 codeLearn rid ch s)

end Sys2Proof.Machine
end

