-- ==== Sys2Proof/Machine/Reserved.lean ====
section
/-!
DEFINITION. The meanings of the two reserved selectors: the fault `IllegalCommand` (60_exceptions.md rule R136). "They are
not hints and not no-ops" (30_encoding.md rule R69).
-/

namespace Sys2Proof.Machine

/-- Selector 6 (30_encoding.md rule R69, 60_exceptions.md rule R136). -/
def execReserved6 (s : State) : Host.Outcome State Fault Refusal :=
  .next (issueReserved 6#3 s)

/-- Selector 7 (30_encoding.md rule R69, 60_exceptions.md rule R136). -/
def execReserved7 (s : State) : Host.Outcome State Fault Refusal :=
  .next (issueReserved 7#3 s)

end Sys2Proof.Machine
end

