-- ==== Sys2Proof/Machine/Symbols.lean ====
section
/-!
DEFINITION. The meanings of the three pulse symbols: the tick at which the pulse begins with its high time
(40_pulse_driver.md rules R81, R83; notes/assumptions/4.md). The low half follows by the sequencer when the high time is over.
-/

namespace Sys2Proof.Machine

/-- `SYNC`: `emit(4500, 1400)` begins (30_encoding.md rule R64); this is `start_frame()` of 70_reset_and_hazards.md rule
R166. -/
def execSync (s : State) : Host.Outcome State Fault Refusal :=
  .next (startFrame s)

/-- `BIT0`: `emit(320, 620)` begins (30_encoding.md rules R64, R65). -/
def execBit0 (s : State) : Host.Outcome State Fault Refusal :=
  .next (startBit false s)

/-- `BIT1`: `emit(620, 320)` begins (30_encoding.md rules R64, R65). -/
def execBit1 (s : State) : Host.Outcome State Fault Refusal :=
  .next (startBit true s)

end Sys2Proof.Machine
end

