-- ==== Sys2Proof/Machine/Waits.lean ====
section
/-!
DEFINITION. The meanings of the three constant waits: the tick at which the delay begins (40_pulse_driver.md rule R86;
notes/assumptions/4.md). "Not pulses; they have no high time" (30_encoding.md rule R67).
-/

namespace Sys2Proof.Machine

/-- `GAP`: `delay(7400)` begins in phase `GAP` (42_command_composer.md rule R105). -/
def execGap (s : State) : Host.Outcome State Fault Refusal :=
  .next (startDelay .gap gapUs s)

/-- `WAIT_INTERPRESS`: `delay(20000)` begins in phase `WAIT` (44_gestures.md rule R125, step 1). -/
def execWaitInterpress (s : State) : Host.Outcome State Fault Refusal :=
  .next (startDelay .wait interpressUs s)

/-- `WAIT_FINAL`: `delay(100000)` begins in phase `WAIT` (44_gestures.md rule R125, step 3). -/
def execWaitFinal (s : State) : Host.Outcome State Fault Refusal :=
  .next (startDelay .wait finalUs s)

end Sys2Proof.Machine
end

