-- ==== Sys2Proof/Machine/Dispatch.lean ====
section
/-!
DEFINITION. The dispatch: one arm for each constructor of Instr.
-/

namespace Sys2Proof.Machine

/-- What the block does at the tick at which the element `i` begins. -/
def exec (i : Instr) (s : State) : Host.Outcome State Fault Refusal :=
  match i with
  | .up rid ch => Sys2Proof.Machine.execUp rid ch s
  | .down rid ch => Sys2Proof.Machine.execDown rid ch s
  | .stop rid ch => Sys2Proof.Machine.execStop rid ch s
  | .learn rid ch => Sys2Proof.Machine.execLearn rid ch s
  | .pair rid ch => Sys2Proof.Machine.execPair rid ch s
  | .chdir rid ch => Sys2Proof.Machine.execChdir rid ch s
  | .reserved6 => Sys2Proof.Machine.execReserved6 s
  | .reserved7 => Sys2Proof.Machine.execReserved7 s
  | .frameUpPrimary p rid ch => Sys2Proof.Machine.execFrameUpPrimary p rid ch s
  | .frameUpConfirm p rid ch => Sys2Proof.Machine.execFrameUpConfirm p rid ch s
  | .frameDownPrimary p rid ch => Sys2Proof.Machine.execFrameDownPrimary p rid ch s
  | .frameDownConfirm p rid ch => Sys2Proof.Machine.execFrameDownConfirm p rid ch s
  | .frameStop p rid ch => Sys2Proof.Machine.execFrameStop p rid ch s
  | .frameLearn p rid ch => Sys2Proof.Machine.execFrameLearn p rid ch s
  | .sync => Sys2Proof.Machine.execSync s
  | .bit0 => Sys2Proof.Machine.execBit0 s
  | .bit1 => Sys2Proof.Machine.execBit1 s
  | .gap => Sys2Proof.Machine.execGap s
  | .waitInterpress => Sys2Proof.Machine.execWaitInterpress s
  | .waitFinal => Sys2Proof.Machine.execWaitFinal s

end Sys2Proof.Machine
end

