-- ==== Sys2Proof/Machine/StepTable.lean ====
section
/-!
DEFINITION. The step tables (44_gestures.md rule R125). "The tables are constants of the block."
-/

namespace Sys2Proof.Machine

/-- The two waits of a gesture (30_encoding.md rule R67). -/
inductive WaitKind where
  /-- `WAIT(20000)`. -/
  | interpress
  /-- `WAIT(100000)`. -/
  | final
  deriving DecidableEq, Repr

/-- One step of a command (44_gestures.md rule R125). -/
inductive CmdStep where
  /-- `SEND(c)`: `send_command(HDR, c, N, needs_conf(c))`. -/
  | send (c : Code)
  /-- `WAIT(n)`: `delay(n)`. -/
  | wait (w : WaitKind)
  deriving DecidableEq, Repr

/-- The length of a wait in microseconds. -/
def waitUs : WaitKind → Nat
  | .interpress => interpressUs
  | .final => finalUs

/-- The table row that a wait step is. -/
def waitElement : WaitKind → Instr
  | .interpress => .waitInterpress
  | .final => .waitFinal

/-- The five steps of a gesture whose last step sends `c`. -/
def gestureSteps (c : Code) : List CmdStep :=
  [.send codeLearn, .wait .interpress, .send codeLearn, .wait .final, .send c]

/-- `prog(op)`: the step table; the reserved selectors 6 and 7 have none. -/
def prog (op : Selector) : List CmdStep :=
  if op = 0#3 then [.send codeUp]
  else if op = 1#3 then [.send codeDown]
  else if op = 2#3 then [.send codeStop]
  else if op = 3#3 then [.send codeLearn]
  else if op = 4#3 then gestureSteps codeUp
  else if op = 5#3 then gestureSteps codeDown
  else []

/-- `last(op)`: the index of the last step. -/
def lastStep (op : Selector) : Nat :=
  (prog op).length - 1

/-- `cmd <= 5`: the selector names a command (30_encoding.md rule R68). -/
def legalSelector (sel : Selector) : Bool :=
  decide (sel.toNat ≤ 5)

end Sys2Proof.Machine
end

