-- ==== Sys2Proof/Machine/Sequencer.lean ====
section
/-!
DEFINITION. The sequencer (70_reset_and_hazards.md rule R166): which element begins at a tick, on what state, and what a tick
does at which no element begins. The block has no program counter; what an instruction fetch is elsewhere is here the
sequencer position settling which encoding applies, and the ports or `FRAME` giving its bits (10_state.md rule R16).
-/

namespace Sys2Proof.Machine

/-- What the end of a phase leads to. -/
inductive Boundary where
  /-- An element of the opcode table begins, on the state with the sequencer position moved. -/
  | begins (i : Instr) (s : State)
  /-- No element begins: the low half of a pulse, or completion. -/
  | within (s : State)
  /-- The step tables give no next step. -/
  | overrun
  deriving DecidableEq, Repr

/-- A tick at the end of a phase runs the element that begins, if one does. -/
def runBoundary (b : Boundary) : Host.Outcome State Fault Refusal :=
  match b with
  | .begins i s => exec i s
  | .within s => .next s
  | .overrun => .fault .stepTableOverrun

/-- The transmission that begins when `FRAME` is as in `s`: the frame that `FRAME` decodes to. `CODE` holds a primary code
whenever a command is in progress (10_state.md rule R14); in a state where it does not, the tick is `start_frame()` alone, the
meaning of `SYNC` (70_reset_and_hazards.md rule R166; notes/assumptions/13.md). -/
def transmission (s : State) : Instr :=
  match decodeFrame s.frame with
  | .error _ => .sync
  | .ok i => if s.code = codeUp ∨ s.code = codeDown ∨ s.code = codeStop ∨ s.code = codeLearn then i else .sync

/-- `advance()`: the current step is over. -/
def advance (s : State) : Boundary :=
  if s.stepIdx.toNat + 1 = (prog s.op).length then .within (complete s)
  else
    match (prog s.op)[s.stepIdx.toNat + 1]? with
    | none => .overrun
    | some (.send c) =>
      let s' := loadSend c { s with stepIdx := s.stepIdx + 1#3 }
      .begins (transmission s') s'
    | some (.wait w) => .begins (waitElement w) { s with stepIdx := s.stepIdx + 1#3 }

/-- The pulse of bit `i` begins: the symbol that `FRAME[i]` decodes to (30_encoding.md rule R65). -/
def bitPulse (i : BitVec 6) (s : State) : Boundary :=
  let s' := { s with bitIdx := i }
  .begins (decodeBit s'.frameBit) s'

/-- The end of a transmission's gap. Where `REP` is 0, which no run reaches, another transmission begins, since `REP` is not 1
(70_reset_and_hazards.md rule R166), and the new `REP` is a free value (`decRep`, notes/assumptions/17.md). -/
def gapEnd (s : State) : Boundary :=
  if s.rep ≠ 1#4 then
    let s' := { s with rep := decRep s.rep }
    .begins (transmission s') s'
  else if s.pass = false ∧ s.conf = true then
    .begins (transmission (beginConfirmPass s)) (beginConfirmPass s)
  else advance s

/-- The end of the current phase (70_reset_and_hazards.md rule R166, the tick with `TMR = 0`). `IDLE` and `FAULT` have
no end. -/
def phaseEnd (s : State) : Boundary :=
  match s.phase with
  | .idle => .within s
  | .fault => .within s
  | .syncHi => .within (syncLow s)
  | .syncLo => bitPulse 39#6 s
  | .bitHi => .within (bitLow s)
  | .bitLo => if s.bitIdx ≠ 0#6 then bitPulse (s.bitIdx - 1#6) s else .begins .gap s
  | .gap => gapEnd s
  | .wait => advance s

/-- A tick with `rst = 0` at the ports `p`, on the state `s` whose port list is already moved on: simultaneous events in the
order of 60_exceptions.md rule R144. -/
def runTick (p : Ports) (s : State) : Host.Outcome State Fault Refusal :=
  match s.phase with
  | .fault => .next s
  | .idle => if p.start then exec (decodeCommand p.word) s else .next s
  | _ =>
    if s.tmr ≠ 0 then .next (countDown s)
    else runBoundary (phaseEnd s)

/-- One tick: reset wins over everything else (70_reset_and_hazards.md rule R160). -/
def tick (s : State) : Host.Outcome State Fault Refusal :=
  if s.port.rst then .next (applyReset s.consume) else runTick s.port s.consume

end Sys2Proof.Machine
end

