-- ==== Sys2Proof/Machine/Place.lean ====
section
/-!
DEFINITION. Placing an element where the next tick begins it (for the host's question `withFetchWord`): the element's bits on
the ports or in `FRAME`, and the sequencer position at the end of the phase before it (notes/assumptions/3.md).
-/

namespace Sys2Proof.Machine

/-- The ports at the present tick become `p`. -/
def State.withPorts (p : Ports) (s : State) : State :=
  { s with inputs := p :: s.inputs.tail }

/-- The block is idle and the host presents a request. -/
def State.withRequest (cmd : Selector) (rid : RemoteId) (ch : ChannelPort) (s : State) : State :=
  { s.withPorts { rst := false, start := true, cmd := cmd, remoteId := rid, channel := ch } with phase := .idle }

/-- The last tick of the phase `ph`, host quiet. -/
def State.atEndOf (ph : Phase) (s : State) : State :=
  { s.withPorts Ports.quiet with phase := ph, tmr := 0 }

/-- The last tick of a gap after which one more transmission follows, with `FRAME` made of the given fields: an instance whose
`PREFIX` is the frame's top byte. -/
def State.beforeFrame (p : PrefixBits) (rid : RemoteId) (ch : Channel) (c : Code) (pass : Bool) (s : State) : State :=
  { s.atEndOf .gap with
    params := { s.params with pfx := p }
    hdrRid := rid
    hdrCh := ch
    code := c
    pass := pass
    rep := 2#4 }

/-- The last tick of the low time of bit 17's pulse, with frame bit 16 (bit 0 of the remote identity) equal to `b`. -/
def State.beforeBit (b : Bool) (s : State) : State :=
  { s.atEndOf .bitLo with bitIdx := 17#6, hdrRid := if b then 1#16 else 0#16 }

/-- The last tick of step `i` of the gesture `PAIR`. -/
def State.beforeStep (i : BitVec 3) (s : State) : State :=
  { s.atEndOf .gap with op := 4#3, stepIdx := i, rep := 1#4, pass := false, conf := false }

/-- The state `s` with the element `i` placed to begin at the next tick. -/
def placeElement (i : Instr) (s : State) : State :=
  match i with
  | .up rid ch => s.withRequest 0#3 rid ch
  | .down rid ch => s.withRequest 1#3 rid ch
  | .stop rid ch => s.withRequest 2#3 rid ch
  | .learn rid ch => s.withRequest 3#3 rid ch
  | .pair rid ch => s.withRequest 4#3 rid ch
  | .chdir rid ch => s.withRequest 5#3 rid ch
  | .reserved6 => s.withRequest 6#3 0#16 0#8
  | .reserved7 => s.withRequest 7#3 0#16 0#8
  | .frameUpPrimary p rid ch => s.beforeFrame p rid ch codeUp false
  | .frameUpConfirm p rid ch => s.beforeFrame p rid ch codeUp true
  | .frameDownPrimary p rid ch => s.beforeFrame p rid ch codeDown false
  | .frameDownConfirm p rid ch => s.beforeFrame p rid ch codeDown true
  | .frameStop p rid ch => s.beforeFrame p rid ch codeStop false
  | .frameLearn p rid ch => s.beforeFrame p rid ch codeLearn false
  | .sync => s.beforeFrame s.params.pfx s.hdrRid s.hdrCh 0x00#8 false
  | .bit0 => s.beforeBit false
  | .bit1 => s.beforeBit true
  | .gap => { s.atEndOf .bitLo with bitIdx := 0#6 }
  | .waitInterpress => s.beforeStep 0#3
  | .waitFinal => s.beforeStep 2#3

/-- The element that the table word is, placed; the state as it is where the word is none. -/
def placeWord (nbits w : Nat) (s : State) : State :=
  match decodeTableWord nbits w with
  | some i => placeElement i s
  | none => s

end Sys2Proof.Machine
end

