-- ==== Sys2Proof/Machine/Step.lean ====
section
/-!
DEFINITION. One step is one tick (70_reset_and_hazards.md rule R164).
-/

namespace Sys2Proof.Machine

/-- One tick of an instance of the block. A state whose parameters are out of range is of no instance and has no step
(notes/assumptions/10.md). -/
def step (s : State) : Host.Outcome State Fault Refusal :=
  if s.params.wf then tick s else .refused .notAnInstance

/-- `s` with the element that the table word is placed to begin at the very next step (notes/assumptions/3.md). -/
def State.withFetchWord (s : State) (nbits w : Nat) : State :=
  placeWord nbits w s

end Sys2Proof.Machine
end

