-- ==== Sys2Proof/Machine/Literal.lean ====
section
/-!
DEFINITION. The step function of 70_reset_and_hazards.md rules R165 and R166, transcribed line by line as the spec writes it,
with no decoder and no dispatch. The machine (`step`) is written over the encoded elements; a statement says that the two agree
in every state, so a reader may hold this file beside the spec's pseudocode.

`none` is the one case R166 does not give: `prog(op)[s]` where the table has no such step. A frame bit at an index of 40 or more
and the value of `REP - 1` at `REP = 0` are the same free values as in the machine (`frameBitAt`, `decRep`;
notes/assumptions/11.md, 17.md).
-/

namespace Sys2Proof.Machine

/-- `start_frame()`. -/
def ruleStartFrame (s : State) : State :=
  { s with tx := true, phase := .syncHi, tmr := load s.params 4500 }

/-- `begin_step(op, s)`, where `r` is the state before the tick with the other writes of the tick made. -/
def ruleBeginStep (op : Selector) (i : Nat) (r : State) : Option State :=
  match (prog op)[i]? with
  | none => none
  | some (.send c) =>
    some (ruleStartFrame { r with
      code := c
      conf := if c = 0x11#8 ∨ c = 0x33#8 then true else false
      pass := false
      rep := r.params.repeatCount })
  | some (.wait .interpress) => some { r with phase := .wait, tmr := load r.params 20000 }
  | some (.wait .final) => some { r with phase := .wait, tmr := load r.params 100000 }

/-- `advance()`. -/
def ruleAdvance (s : State) : Option State :=
  if prog s.op ≠ [] ∧ s.stepIdx.toNat = lastStep s.op then
    some { s with phase := .idle, done := true, stepIdx := 0#3, pass := false, conf := false, rep := 0#4, bitIdx := 0#6 }
  else ruleBeginStep s.op (s.stepIdx.toNat + 1) { s with stepIdx := s.stepIdx + 1#3 }

/-- The value of `FRAME` (70_reset_and_hazards.md rule R165). -/
def ruleFrame (s : State) : Frame :=
  s.params.pfx ++ s.hdrRid ++ s.hdrCh ++ 0b0000#4 ++
    (if s.pass then (s.code &&& 0xF0#8) ||| ((s.code ^^^ 0xFF#8) &&& 0x0F#8) else s.code)

/-- `hi(b)`. -/
def ruleHi (b : Bool) : Nat := if b = true then 620 else 320

/-- `lo(b)`. -/
def ruleLo (b : Bool) : Nat := if b = true then 320 else 620

/-- `step(S, in)` of rule R166 for the ports `p` at the tick. -/
def ruleStep (p : Ports) (s : State) : Option State :=
  if p.rst then some (State.resetOf s.params s.inputs)
  else
    match s.phase with
    | .idle =>
      if p.start = false then some s
      else if 5 < p.cmd.toNat then
        some { s with err := true, op := p.cmd, done := false, phase := .fault }
      else
        ruleBeginStep p.cmd 0 { s with
          op := p.cmd
          hdrRid := p.remoteId
          hdrCh := (p.channel &&& 0xF#8).setWidth 4
          done := false
          stepIdx := 0#3 }
    | .fault => some s
    | .syncHi =>
      if s.tmr ≠ 0 then some { s with tmr := s.tmr - 1 }
      else some { s with tx := false, phase := .syncLo, tmr := load s.params 1400 }
    | .syncLo =>
      if s.tmr ≠ 0 then some { s with tmr := s.tmr - 1 }
      else some { s with
        bitIdx := 39#6
        tx := true
        phase := .bitHi
        tmr := load s.params (ruleHi ((ruleFrame s).getLsbD 39)) }
    | .bitHi =>
      if s.tmr ≠ 0 then some { s with tmr := s.tmr - 1 }
      else some { s with
        tx := false
        phase := .bitLo
        tmr := load s.params (ruleLo (frameBitAt (ruleFrame s) s.bitIdx.toNat)) }
    | .bitLo =>
      if s.tmr ≠ 0 then some { s with tmr := s.tmr - 1 }
      else if s.bitIdx ≠ 0#6 then some { s with
        bitIdx := s.bitIdx - 1#6
        tx := true
        phase := .bitHi
        tmr := load s.params (ruleHi (frameBitAt (ruleFrame s) (s.bitIdx.toNat - 1))) }
      else some { s with phase := .gap, tmr := load s.params 7400 }
    | .gap =>
      if s.tmr ≠ 0 then some { s with tmr := s.tmr - 1 }
      else if s.rep ≠ 1#4 then some (ruleStartFrame { s with rep := decRep s.rep })
      else if s.pass = false ∧ s.conf = true then
        some (ruleStartFrame { s with pass := true, rep := s.params.repeatCount })
      else ruleAdvance s
    | .wait =>
      if s.tmr ≠ 0 then some { s with tmr := s.tmr - 1 }
      else ruleAdvance s

end Sys2Proof.Machine
end

