-- ==== Sys2Proof/Machine/Trace.lean ====
section
/-!
DEFINITION. The trace semantics (00_scope.md rule R9 and files 40 to 44 of the spec): what appears on the pin, in
microseconds. Pure functions of values, separate from the state machine, total over their operands (92_eei_decisions.md D24).
-/

namespace Sys2Proof.Machine

/-- A segment: a level and a duration in microseconds (00_scope.md rule R9). -/
abbrev Segment := Bool × Nat

/-- A trace: a finite list of segments. -/
abbrev Trace := List Segment

/-- `dur(t)`: the sum of the durations. -/
def dur : Trace → Nat
  | [] => 0
  | (_, d) :: t => d + dur t

/-- The time the pin is high within a trace. -/
def highTime : Trace → Nat
  | [] => 0
  | (l, d) :: t => (if l then d else 0) + highTime t

/-- `rep(n, t)`: `t` joined `n` times. -/
def repTrace : Nat → Trace → Trace
  | 0, _ => []
  | n + 1, t => t ++ repTrace n t

/-- Puts a segment before a trace in normal form: dropped if it has no duration, merged with a neighbour of equal level. -/
def normCons (x : Segment) (t : Trace) : Trace :=
  if x.2 = 0 then t
  else
    match t with
    | [] => [x]
    | y :: r => if x.1 = y.1 then (x.1, x.2 + y.2) :: r else x :: y :: r

/-- `norm(t)`. -/
def normTrace (t : Trace) : Trace :=
  t.foldr normCons []

/-- Two traces are pin-equivalent when their `norm` is equal. -/
def PinEquivalent (t u : Trace) : Prop :=
  normTrace t = normTrace u

/-- `wave_T(t)`: one level per tick. -/
def wave (ticksPerUs : Nat) : Trace → List Bool
  | [] => []
  | (l, d) :: t => List.replicate (d * ticksPerUs) l ++ wave ticksPerUs t

/-- The pulse `[(1, on), (0, off)]` (00_scope.md rule R9). -/
def pulse (on off : Nat) : Trace :=
  [(true, on), (false, off)]

/-- `emit(on, off)` (40_pulse_driver.md rules R81, R84): a pulse; a call with a duration of 0 is refused
(notes/assumptions/15.md). -/
def emit (on off : Nat) : Option Trace :=
  if 1 ≤ on ∧ 1 ≤ off then some (pulse on off) else none

/-- The low segment `[(0, n)]`. -/
def low (n : Nat) : Trace :=
  [(false, n)]

/-- `delay(n)` (40_pulse_driver.md rules R84, R86): the pin low; a duration of 0 is refused
(notes/assumptions/15.md). -/
def delay (n : Nat) : Option Trace :=
  if 1 ≤ n then some (low n) else none

/-- The symbol `SYNC` (30_encoding.md rule R64). -/
def syncTrace : Trace :=
  pulse syncHiUs syncLoUs

/-- `sym(b)` (41_frame_transmitter.md rule R90). -/
def sym (b : Bool) : Trace :=
  pulse (bitHiUs b) (bitLoUs b)

/-- The symbols of the `n` lowest bits of a frame, the highest of them first. -/
def bitsTrace (f : Frame) : Nat → Trace
  | 0 => []
  | n + 1 => sym (f.getLsbD n) ++ bitsTrace f n

/-- `transmit_frame(f)` (41_frame_transmitter.md rule R90). -/
def transmitFrame (f : Frame) : Trace :=
  syncTrace ++ bitsTrace f 40

/-- `send_pass(f, n)` (42_command_composer.md rule R105). -/
def sendPass (f : Frame) (n : Nat) : Trace :=
  repTrace n (transmitFrame f ++ low gapUs)

/-- `send_command(h, c, n, conf)` (42_command_composer.md rule R106). -/
def sendCommand (h : Header) (c : Code) (n : Nat) (conf : Bool) : Trace :=
  sendPass (buildFrame h c) n ++ (if conf then sendPass (confirm (buildFrame h c)) n else [])

/-- `step_trace` (44_gestures.md rule R125), for `N = n`. -/
def stepTrace (h : Header) (n : Nat) : CmdStep → Trace
  | .send c => sendCommand h c n (needsConf c)
  | .wait w => low (waitUs w)

/-- The traces of a list of steps, in order. -/
def stepsTrace (h : Header) (n : Nat) : List CmdStep → Trace
  | [] => []
  | x :: r => stepTrace h n x ++ stepsTrace h n r

/-- `trace(op, h)` (44_gestures.md rule R125), for `N = n`. -/
def commandTrace (op : Selector) (h : Header) (n : Nat) : Trace :=
  stepsTrace h n (prog op)

/-- The code of the last step of a command (70_reset_and_hazards.md rule R167 (3)). The selectors 6 and 7 name no command; the value
here for them is not used (notes/assumptions/15.md). -/
def lastCode (op : Selector) : Code :=
  if op = 0#3 then codeUp
  else if op = 1#3 then codeDown
  else if op = 2#3 then codeStop
  else if op = 3#3 then codeLearn
  else if op = 4#3 then codeUp
  else codeDown

/-- The number of rising edges of a trace that starts from a low pin: one for each high run. -/
def risingEdges : Bool → Trace → Nat
  | _, [] => 0
  | prev, (l, d) :: t => (if l && !prev && d != 0 then 1 else 0) + risingEdges (if d = 0 then prev else l) t

/-- The number of falling edges of a trace that starts from the level `prev`. -/
def fallingEdges : Bool → Trace → Nat
  | _, [] => 0
  | prev, (l, d) :: t => (if !l && prev && d != 0 then 1 else 0) + fallingEdges (if d = 0 then prev else l) t

/-- The trace of an encoded element, for an instance with parameters `c`: the whole of what it puts on the pin. A reserved
selector puts nothing there (60_exceptions.md rule R136). -/
def elementTrace (c : Config) : Instr → Trace
  | .up rid ch => commandTrace 0#3 (buildHeader c rid ch) c.repeatCount.toNat
  | .down rid ch => commandTrace 1#3 (buildHeader c rid ch) c.repeatCount.toNat
  | .stop rid ch => commandTrace 2#3 (buildHeader c rid ch) c.repeatCount.toNat
  | .learn rid ch => commandTrace 3#3 (buildHeader c rid ch) c.repeatCount.toNat
  | .pair rid ch => commandTrace 4#3 (buildHeader c rid ch) c.repeatCount.toNat
  | .chdir rid ch => commandTrace 5#3 (buildHeader c rid ch) c.repeatCount.toNat
  | .reserved6 => []
  | .reserved7 => []
  | .frameUpPrimary p rid ch => transmitFrame (frameWord p rid ch codeUp)
  | .frameUpConfirm p rid ch => transmitFrame (frameWord p rid ch (confirmCode codeUp))
  | .frameDownPrimary p rid ch => transmitFrame (frameWord p rid ch codeDown)
  | .frameDownConfirm p rid ch => transmitFrame (frameWord p rid ch (confirmCode codeDown))
  | .frameStop p rid ch => transmitFrame (frameWord p rid ch codeStop)
  | .frameLearn p rid ch => transmitFrame (frameWord p rid ch codeLearn)
  | .sync => syncTrace
  | .bit0 => sym false
  | .bit1 => sym true
  | .gap => low gapUs
  | .waitInterpress => low interpressUs
  | .waitFinal => low finalUs

/-- Reading a frame back from its trace: segment `2 + 2 * (39 - i)` is the high time of bit `i`, 620 for a 1
(41_frame_transmitter.md rule R94). -/
def recoverBit (t : Trace) (i : Nat) : Bool :=
  (t[2 + 2 * (39 - i)]?).any fun x => x.2 == 620

end Sys2Proof.Machine
end

