-- ==== Sys2Proof/Safety.lean ====
section
/-!
DEFINITION. What claims about the block are stated in: the invariant of its reachable states, its canonical idle states, runs
of several ticks and what they put on the pin.
-/

namespace Sys2Proof.Machine

/-- The timer runs within the length of its phase (10_state.md rule R24). -/
def State.tmrBound (s : State) : Nat :=
  match s.phase with
  | .idle => 0
  | .fault => 0
  | .syncHi => load s.params syncHiUs
  | .syncLo => load s.params syncLoUs
  | .bitHi => load s.params (bitHiUs s.frameBit)
  | .bitLo => load s.params (bitLoUs s.frameBit)
  | .gap => load s.params gapUs
  | .wait => load s.params (if s.stepIdx = 1#3 then interpressUs else finalUs)

/-- In a busy phase, the registers agree with the step of the command that `OP` and `STEP` point at: in a SEND step `CODE` is
its code, in a WAIT step `REP` is 1 and `CODE` is the code of the step before (10_state.md rules R14, R34 (e)). -/
def State.stepAgrees (s : State) : Bool :=
  match s.phase, (prog s.op)[s.stepIdx.toNat]? with
  | .wait, some (.wait _) => s.rep == 1#4 && s.code == codeLearn
  | .wait, _ => false
  | _, some (.send c) => s.code == c
  | _, _ => false

/-- The invariant of every reachable state: the clauses of 10_state.md rule R34, with what rules R14, R20, R24 and R33 add to
make it one that a step keeps. Clause (b) of R34 holds in every state, since `HDR.PREFIX` is hardwired. -/
structure State.Inv (s : State) : Prop where
  /-- The parameters are in range (00_scope.md rule R5). -/
  params_wf : s.params.wf = true
  /-- R34 (a): the pin is high exactly in the high phases. -/
  tx_high : s.tx = s.phase.high
  /-- R34 (c), and the range of `TMR` in the other phases (R24). -/
  tmr_le : s.tmr ≤ s.tmrBound
  /-- R34 (d). -/
  bitIdx_le : s.bitIdx.toNat ≤ 39
  /-- R34 (e). -/
  rep_range : s.busy = true → 1 ≤ s.rep.toNat ∧ s.rep.toNat ≤ s.params.repeatCount.toNat
  /-- R34 (f). -/
  pass_conf : s.pass = true → s.conf = true
  /-- R34 (g), with the agreement of the registers with the step table. -/
  step_agrees : s.busy = true → s.stepAgrees = true
  /-- R20: the confirmation flag is the fixed property of the code. -/
  conf_code : s.busy = true → s.conf = needsConf s.code
  /-- R34 (h). -/
  err_fault : s.err = true ↔ s.phase = .fault
  /-- R34 (i). -/
  done_idle : s.done = true → s.phase = .idle
  /-- R33: outside a command every counter and flag of the sequencer is at its reset value. -/
  idle_canonical : s.busy = false →
    s.stepIdx = 0#3 ∧ s.pass = false ∧ s.conf = false ∧ s.rep = 0#4 ∧ s.bitIdx = 0#6

/-- The clauses of 10_state.md rule R34, as the spec words them. -/
structure State.RuleR34 (s : State) : Prop where
  /-- (a) -/
  a : s.tx = true ↔ s.phase = .syncHi ∨ s.phase = .bitHi
  /-- (b) -/
  b : s.hdr.extractLsb' 20 8 = s.params.pfx
  /-- (c) -/
  c : s.phase = .idle ∨ s.phase = .fault → s.tmr = 0 ∧ s.tx = false
  /-- (d) -/
  d : 0 ≤ s.bitIdx.toNat ∧ s.bitIdx.toNat ≤ 39
  /-- (e) -/
  e : s.busy = true →
    (s.phase ≠ .wait → 1 ≤ s.rep.toNat ∧ s.rep.toNat ≤ s.params.repeatCount.toNat) ∧ (s.phase = .wait → s.rep = 1#4)
  /-- (f) -/
  f : s.pass = true → s.conf = true
  /-- (g) -/
  g : s.busy = true → s.op.toNat ≤ 5 ∧ s.stepIdx.toNat ≤ lastStep s.op
  /-- (h) -/
  h : s.err = true ↔ s.phase = .fault
  /-- (i) -/
  i : s.done = true → s.phase = .idle

/-- The canonical idle state for `(op, hdr, code, done)`, the header given by its two written fields (10_state.md rule R33). -/
def State.canonicalIdle (c : Config) (op : Selector) (rid : RemoteId) (ch : Channel) (code : Code) (done : Bool)
    (ins : List Ports) : State :=
  { State.resetOf c ins with op := op, hdrRid := rid, hdrCh := ch, code := code, done := done }

/-- `k` ticks of the block. -/
def runTicks (k : Nat) (s : State) : Host.Outcome State Fault Refusal :=
  Sys2Proof.core.run k s

/-- The host does not apply `rst` at any of the next `k` ticks. Every other port is free (70_reset_and_hazards.md rule
R170). -/
def State.NoReset (k : Nat) (s : State) : Prop :=
  ∀ p ∈ s.inputs.take k, p.rst = false

/-- At the present tick the ports are these, `rst = 0` and `start = 1`. -/
def State.Requests (s : State) (cmd : Selector) (rid : RemoteId) (ch : ChannelPort) : Prop :=
  s.port = { rst := false, start := true, cmd := cmd, remoteId := rid, channel := ch }

/-- From `s`, the next `w.length` states show `w` on the pin with `busy = 1`, as long as the host applies no reset; the state
after them is `t` (whose port list is `s`'s moved on). -/
def State.Emits (s : State) (w : List Bool) (t : State) : Prop :=
  ∀ ins : List Ports,
    (∀ j : Nat, (∀ p ∈ ins.take j, p.rst = false) → ∀ hj : j < w.length,
      ∃ u, runTicks j { s with inputs := ins } = .next u ∧ u.tx = w[j] ∧ u.busy = true) ∧
    ((∀ p ∈ ins.take w.length, p.rst = false) →
      runTicks w.length { s with inputs := ins } = .next { t with inputs := ins.drop w.length })

end Sys2Proof.Machine
end

