-- ==== Sys2Proof/WellFormed.lean ====
section
/-!
DEFINITION. Which elements an instance of the block can carry.

The operands' widths are in their types, and every value of every operand is legal (30_encoding.md rules R58, R59;
60_exceptions.md rule R140), so the one check left is that a frame carries the instance's own `PREFIX`
(30_encoding.md rules R57, R73: "`f` is a frame the block can send if and only if `prefix = PREFIX`, …"). The other
two conditions of R73 (`rsv = 0`, one of six codes) are the decoder's.
-/

namespace Sys2Proof

/-- The element is one that an instance with parameters `c` can carry. -/
def Instr.wellFormed (c : Config) : Instr → Bool
  | .up _ _ => true
  | .down _ _ => true
  | .stop _ _ => true
  | .learn _ _ => true
  | .pair _ _ => true
  | .chdir _ _ => true
  | .reserved6 => true
  | .reserved7 => true
  | .frameUpPrimary p _ _ => p == c.pfx
  | .frameUpConfirm p _ _ => p == c.pfx
  | .frameDownPrimary p _ _ => p == c.pfx
  | .frameDownConfirm p _ _ => p == c.pfx
  | .frameStop p _ _ => p == c.pfx
  | .frameLearn p _ _ => p == c.pfx
  | .sync => true
  | .bit0 => true
  | .bit1 => true
  | .gap => true
  | .waitInterpress => true
  | .waitFinal => true

end Sys2Proof
end

