-- ==== Sys2Proof/Certificates/Slice0/Obligations.lean ====
section
/-!
DEFINITION. The statements for the provers. Each docstring names the rules of spec/ that a statement rests on; where it rests on
a choice of the model, it names the log entry.
-/

open Sys2Proof Sys2Proof.Machine

/-! ## Encodings (30_encoding.md) -/

/-- Decoding an encoded element gives it back, with every operand at every value (30_encoding.md rules R55 to R73: "for the
round-trip law of a model"). The places of the operand ports in a request are the model's (notes/assumptions/5.md). -/
def Obligations.DecodeOfEncode : Prop :=
  ∀ i : Instr, decode (encode i).format (encode i).bits = .ok i

/-- The other direction: bits that decode to an element are that element's code, except that a reserved selector drops the
operand ports (they are not sampled at a faulting tick, 60_exceptions.md rule R137). -/
def Obligations.EncodeOfDecode : Prop :=
  ∀ (fm : Format) (w : Nat) (i : Instr), decode fm w = .ok i → i ≠ .reserved6 → i ≠ .reserved7 → encode i = ⟨fm, w⟩

/-- The selector table of 30_encoding.md rule R68, for every value of the operand ports, and rule R69's two reserved values beside it,
on the bundle of the three ports (whose operand bits stand where notes/assumptions/5.md chose). -/
def Obligations.SelectorNumbersNameTheCommands : Prop :=
  ∀ (rid : RemoteId) (ch : ChannelPort),
    decodeCommand (requestWord 0b000#3 rid ch) = .up rid ch ∧
    decodeCommand (requestWord 0b001#3 rid ch) = .down rid ch ∧
    decodeCommand (requestWord 0b010#3 rid ch) = .stop rid ch ∧
    decodeCommand (requestWord 0b011#3 rid ch) = .learn rid ch ∧
    decodeCommand (requestWord 0b100#3 rid ch) = .pair rid ch ∧
    decodeCommand (requestWord 0b101#3 rid ch) = .chdir rid ch ∧
    decodeCommand (requestWord 0b110#3 rid ch) = .reserved6 ∧
    decodeCommand (requestWord 0b111#3 rid ch) = .reserved7

/-- Words written out from the spec's encodings (30_encoding.md rules R64 to R68; 95_test_vectors.md V-F1 to V-F6, V-F9,
V-F10) decode to what they stand for. -/
def Obligations.WordsFromTheSpecDecode : Prop :=
  decode .cmdsel 0b000 = .ok (.up 0x0000#16 0x00#8) ∧
  decode .cmdsel 0b101 = .ok (.chdir 0x0000#16 0x00#8) ∧
  decode .cmdsel 0b110 = .ok .reserved6 ∧
  decode .frame 0b0001111100000000010000100001000000010001 = .ok (.frameUpPrimary 0x1F#8 0x0042#16 1#4) ∧
  decode .frame 0b0001111100000000010000100001000000011110 = .ok (.frameUpConfirm 0x1F#8 0x0042#16 1#4) ∧
  decode .frame 0b0001111100000000010000100001000000110011 = .ok (.frameDownPrimary 0x1F#8 0x0042#16 1#4) ∧
  decode .frame 0b0001111100000000010000100001000000111100 = .ok (.frameDownConfirm 0x1F#8 0x0042#16 1#4) ∧
  decode .frame 0b0001111100000000010000100001000001010101 = .ok (.frameStop 0x1F#8 0x0042#16 1#4) ∧
  decode .frame 0b0001111100010010001101000101000011001100 = .ok (.frameLearn 0x1F#8 0x1234#16 5#4) ∧
  decode .symbolBit 0 = .ok .bit0 ∧ decode .symbolBit 1 = .ok .bit1 ∧ decode .symbolSync 0 = .ok .sync ∧
  decode .waitGap 0 = .ok .gap ∧ decode .waitInterpress 0 = .ok .waitInterpress ∧ decode .waitFinal 0 = .ok .waitFinal

/-- 30_encoding.md rule R73 (which the spec marks as derived): a 40-bit value is a frame the instance can send if and only if
its top byte is `PREFIX`, its reserved bits are 0 and its low byte is one of six; and which command it belongs to. -/
def Obligations.SendableFramesAreThoseOfR73 : Prop :=
  ∀ (c : Config) (f : Frame),
    ((∃ i, decode .frame f.toNat = .ok i ∧ i.wellFormed c = true) ↔
      f.extractLsb' 32 8 = c.pfx ∧ f.extractLsb' 8 4 = 0#4 ∧
        f.extractLsb' 0 8 ∈ [0x11#8, 0x1E#8, 0x33#8, 0x3C#8, 0x55#8, 0xCC#8]) ∧
    (f.extractLsb' 8 4 = 0#4 →
      let p := f.extractLsb' 32 8
      let rid := f.extractLsb' 16 16
      let ch := f.extractLsb' 12 4
      (f.extractLsb' 0 8 = 0x11#8 → decode .frame f.toNat = .ok (.frameUpPrimary p rid ch)) ∧
      (f.extractLsb' 0 8 = 0x1E#8 → decode .frame f.toNat = .ok (.frameUpConfirm p rid ch)) ∧
      (f.extractLsb' 0 8 = 0x33#8 → decode .frame f.toNat = .ok (.frameDownPrimary p rid ch)) ∧
      (f.extractLsb' 0 8 = 0x3C#8 → decode .frame f.toNat = .ok (.frameDownConfirm p rid ch)) ∧
      (f.extractLsb' 0 8 = 0x55#8 → decode .frame f.toNat = .ok (.frameStop p rid ch)) ∧
      (f.extractLsb' 0 8 = 0xCC#8 → decode .frame f.toNat = .ok (.frameLearn p rid ch)))

/-! ## The frame composer (42_command_composer.md) -/

/-- 42_command_composer.md rule R100: `build_header`, as a concatenation and as shifts and ors, in 28 and in 40 bits; the mask
on the channel; the worked example; and that it is what acceptance puts into `HDR`. -/
def Obligations.HeaderIsBuiltFromThePorts : Prop :=
  (∀ (c : Config) (rid : RemoteId) (ch : ChannelPort),
    buildHeader c rid ch = c.pfx ++ rid ++ ch.extractLsb' 0 4 ∧
    buildHeader c rid ch =
      (c.pfx.setWidth 28 <<< 20) ||| (rid.setWidth 28 <<< 4) ||| (ch &&& 0x0F#8).setWidth 28 ∧
    ((buildHeader c rid ch).setWidth 40 <<< 12 : BitVec 40) =
      (c.pfx.setWidth 40 <<< 32) ||| (rid.setWidth 40 <<< 16) ||| ((ch &&& 0x0F#8).setWidth 40 <<< 12) ∧
    ((buildHeader c rid ch).setWidth 40 <<< 12 : BitVec 40).extractLsb' 8 4 = 0#4 ∧
    buildHeader c rid 0x10#8 = buildHeader c rid 0x00#8 ∧
    buildHeader c 0xFFFF#16 0xFF#8 = c.pfx ++ 0xFFFF#16 ++ 0xF#4) ∧
  (∀ c : Config, c.pfx = 0x1F#8 →
    buildHeader c 0x0042#16 1#8 = 0x1F00421#28 ∧
    ((buildHeader c 0x0042#16 1#8).setWidth 40 <<< 12 : BitVec 40) = 0x1F00421000#40) ∧
  (∀ (s : State) (cmd : Selector) (rid : RemoteId) (ch : ChannelPort),
    s.params.wf = true → s.phase = .idle → s.Requests cmd rid ch → cmd.toNat ≤ 5 →
      ∃ t, step s = .next t ∧ t.hdr = buildHeader s.params rid ch)

/-- 42_command_composer.md rule R101: `build_frame`, as a concatenation, as a shift and an or, and the worked example. -/
def Obligations.FrameIsHeaderReservedCode : Prop :=
  (∀ (h : Header) (c : Code),
    buildFrame h c = h ++ 0b0000#4 ++ c ∧
    buildFrame h c = (h.setWidth 40 <<< 12) ||| c.setWidth 40 ∧
    buildFrame h c = (h.setWidth 40 <<< 12) + c.setWidth 40 ∧
    buildFrame h c = (h.setWidth 40 <<< 12) ^^^ c.setWidth 40 ∧
    (buildFrame h c).extractLsb' 8 4 = 0#4) ∧
  buildFrame 0x1F00421#28 0x11#8 = 0x1F00421011#40

/-- 42_command_composer.md rule R102: `confirm` inverts bits 3 to 0 and keeps bits 39 to 4, and on a frame it is
`confirm_code` on the code. -/
def Obligations.ConfirmInvertsTheLowNibble : Prop :=
  (∀ f : Frame,
    confirm f = f ^^^ 0x000000000F#40 ∧
    (∀ i : Nat, 4 ≤ i → (confirm f).getLsbD i = f.getLsbD i) ∧
    (∀ i : Nat, i < 4 → (confirm f).getLsbD i = !f.getLsbD i)) ∧
  (∀ (h : Header) (c : Code), confirm (buildFrame h c) = buildFrame h (confirmCode c)) ∧
  confirm 0x1F00421011#40 = 0x1F0042101E#40 ∧ confirm 0x1F00421033#40 = 0x1F0042103C#40

/-- 42_command_composer.md rule R103 (which the spec marks as derived), the laws (a) to (e) of `confirm`. -/
def Obligations.ConfirmLawsOfR103 : Prop :=
  ∀ f : Frame,
    confirm (confirm f) = f ∧ confirm f ≠ f ∧
    (confirm f).extractLsb' 12 28 = f.extractLsb' 12 28 ∧
    (confirm f).extractLsb' 4 4 = f.extractLsb' 4 4 ∧
    (confirm f).extractLsb' 0 4 = ~~~(f.extractLsb' 0 4) ∧
    ones (confirm f) + 2 * ones ((f.extractLsb' 0 4).setWidth 40) = ones f + 4

/-- 30_encoding.md rule R62: the confirmation code and its values; that in those of UP and DOWN the low nibble is the complement of
the high nibble, which is the spec's own inference ("[derived: from rule R61]"); and that a busy block is in a confirmation pass only
with the code of UP or DOWN and never has 0x5A or 0xC3 in frame bits 7 to 0 ("the block never transmits those values"). -/
def Obligations.ConfirmationCodeValues : Prop :=
  (∀ c : Code, (confirmCode c).extractLsb' 4 4 = c.extractLsb' 4 4 ∧
    (confirmCode c).extractLsb' 0 4 = ~~~(c.extractLsb' 0 4) ∧
    confirmCode c = (c &&& 0xF0#8) ||| ((c ^^^ 0xFF#8) &&& 0x0F#8)) ∧
  confirmCode 0x11#8 = 0x1E#8 ∧ confirmCode 0x33#8 = 0x3C#8 ∧
  confirmCode 0x55#8 = 0x5A#8 ∧ confirmCode 0xCC#8 = 0xC3#8 ∧
  (0x1E#8).extractLsb' 0 4 = ~~~((0x1E#8).extractLsb' 4 4) ∧
  (0x3C#8).extractLsb' 0 4 = ~~~((0x3C#8).extractLsb' 4 4) ∧
  (∀ s : State, s.Inv → s.busy = true →
    (s.code ≠ 0x11#8 → s.code ≠ 0x33#8 → s.pass = false) ∧
    s.frame.extractLsb' 0 8 ≠ 0x5A#8 ∧ s.frame.extractLsb' 0 8 ≠ 0xC3#8)

/-- 30_encoding.md rule R60: the reserved bits are 0 in every frame the composer can build and in `FRAME` in every state. -/
def Obligations.ReservedBitsAreZero : Prop :=
  (∀ (c : Config) (rid : RemoteId) (ch : ChannelPort) (k : Code),
    (buildFrame (buildHeader c rid ch) k).extractLsb' 8 4 = 0#4 ∧
    (confirm (buildFrame (buildHeader c rid ch) k)).extractLsb' 8 4 = 0#4) ∧
  (∀ s : State, s.frame.extractLsb' 8 4 = 0#4)

/-- 30_encoding.md rules R58, R59: where the bits of the ports `remote_id` and `channel` stand in `FRAME` after an acceptance, in
every one of the six commands; bits 7 to 4 of `channel` reach no register. -/
def Obligations.PortBitsReachTheFrame : Prop :=
  ∀ (s : State) (cmd : Selector) (rid : RemoteId) (ch : ChannelPort),
    s.params.wf = true → s.phase = .idle → s.Requests cmd rid ch → cmd.toNat ≤ 5 →
      ∃ t, step s = .next t ∧
        (∀ i : Nat, i < 16 → t.frame.getLsbD (16 + i) = rid.getLsbD i) ∧
        (∀ i : Nat, i < 4 → t.frame.getLsbD (12 + i) = ch.getLsbD i) ∧
        (∀ hi : BitVec 4, step { s with inputs :=
            { rst := false, start := true, cmd := cmd, remoteId := rid, channel := hi ++ ch.extractLsb' 0 4 } :: s.inputs.tail }
          = .next t)

/-- 30_encoding.md rule R72 (which the spec marks as derived): the map from the four fields to the frame is injective, and a
primary frame differs from its confirmation frame in exactly bits 3 to 0. -/
def Obligations.FramesAreUnique : Prop :=
  (∀ (p p' : PrefixBits) (rid rid' : RemoteId) (ch ch' : Channel) (k k' : Code),
    frameWord p rid ch k = frameWord p' rid' ch' k' → p = p' ∧ rid = rid' ∧ ch = ch' ∧ k = k') ∧
  (∀ (f : Frame) (i : Nat), i < 40 → ((confirm f).getLsbD i ≠ f.getLsbD i ↔ i < 4))

/-! ## Traces (files 40 to 44) -/

/-- 41_frame_transmitter.md rule R90: `transmit_frame`, written out bit by bit, and the start of its worked example. -/
def Obligations.TransmitFrameIsSyncAndFortyBits : Prop :=
  (∀ f : Frame, transmitFrame f =
    [(true, 4500), (false, 1400)] ++
      ((List.range 40).map fun k => 39 - k).flatMap fun i =>
        if f.getLsbD i then [(true, 620), (false, 320)] else [(true, 320), (false, 620)]) ∧
  (transmitFrame 0#40 = [(true, 4500), (false, 1400)] ++ (List.replicate 40 [(true, 320), (false, 620)]).flatten) ∧
  (transmitFrame (BitVec.allOnes 40) =
    [(true, 4500), (false, 1400)] ++ (List.replicate 40 [(true, 620), (false, 320)]).flatten) ∧
  (transmitFrame 0x1F00421011#40).take 10 =
    [(true, 4500), (false, 1400), (true, 320), (false, 620), (true, 320), (false, 620), (true, 320), (false, 620),
      (true, 620), (false, 320)]

/-- 41_frame_transmitter.md rule R91: 41 pulses, 82 segments alternating from high, unchanged by `norm`, 41 rising and 41 falling
edges; each bit pulse matches its value's timing pair, most significant bit first. -/
def Obligations.TransmitFrameHas41Pulses : Prop :=
  ∀ f : Frame,
    (transmitFrame f).length = 82 ∧
    (∀ (k : Nat) (x : Segment), (transmitFrame f)[k]? = some x → x.1 = decide (k % 2 = 0)) ∧
    (transmitFrame f)[0]? = some (true, 4500) ∧ (transmitFrame f)[1]? = some (false, 1400) ∧
    (∀ i : Nat, i < 40 →
      (transmitFrame f)[2 + 2 * (39 - i)]? = some (true, if f.getLsbD i then 620 else 320) ∧
      (transmitFrame f)[3 + 2 * (39 - i)]? = some (false, if f.getLsbD i then 320 else 620)) ∧
    normTrace (transmitFrame f) = transmitFrame f ∧
    risingEdges false (transmitFrame f) = 41 ∧ fallingEdges false (transmitFrame f) = 41

/-- 41_frame_transmitter.md rules R92, R94 (which the spec marks as derived): the length of a transmission does not depend on the
frame, its high time depends on the number of 1 bits, and the frame can be read back. -/
def Obligations.TransmissionLengthAndRecovery : Prop :=
  (∀ f : Frame, dur (transmitFrame f) = 43500 ∧ highTime (transmitFrame f) = 17300 + 300 * ones f) ∧
  (∀ (f : Frame) (i : Nat), i < 40 → recoverBit (transmitFrame f) i = f.getLsbD i) ∧
  (∀ f g : Frame, transmitFrame f = transmitFrame g → f = g)

/-- 40_pulse_driver.md rule R81 with R84 and R86: `emit` and `delay` as traces, their length, the refusal of a duration of 0, and
the worked examples; `emit` ends low. -/
def Obligations.EmitAndDelayTraces : Prop :=
  (∀ on off : Nat, 1 ≤ on → 1 ≤ off →
    emit on off = some [(true, on), (false, off)] ∧ dur (pulse on off) = on + off) ∧
  (∀ n : Nat, emit 0 n = none ∧ emit n 0 = none) ∧
  (∀ n : Nat, 1 ≤ n → delay n = some [(false, n)]) ∧ delay 0 = none ∧
  emit 4500 1400 = some syncTrace ∧ emit 320 620 = some (sym false) ∧ emit 620 320 = some (sym true) ∧
  (∀ lo on off n : Nat, 1 ≤ on → 1 ≤ off → 1 ≤ lo → 1 ≤ n →
    normTrace (pulse on off ++ pulse on lo) = [(true, on), (false, off), (true, on), (false, lo)] ∧
    normTrace (pulse on lo ++ low n) = [(true, on), (false, lo + n)]) ∧
  normTrace (pulse 620 320 ++ low 7400) = [(true, 620), (false, 7720)] ∧
  PinEquivalent (pulse 620 320 ++ low 7400) [(true, 620), (false, 7720)]

/-- 40_pulse_driver.md rule R86 and 44_gestures.md rule R128 (which the spec marks as derived), 70_reset_and_hazards.md rule R174: on
the pin a delay merges with the low time before it and with nothing else. The low times between two transmissions are
`lo + 7400`, and 28020 and 108020 microseconds after the two LEARN sends of a gesture. -/
def Obligations.LowTimesBetweenTransmissions : Prop :=
  (∀ (f g : Frame) (n : Nat), 1 ≤ n →
    normTrace (transmitFrame f ++ low n ++ transmitFrame g) =
      (transmitFrame f).dropLast ++ [(false, (if f.getLsbD 0 then 320 else 620) + n)] ++ transmitFrame g) ∧
  (∀ (f g : Frame) (n : Nat), 1 ≤ n →
    normTrace (transmitFrame f ++ low 7400 ++ low n ++ transmitFrame g) =
      (transmitFrame f).dropLast ++ [(false, (if f.getLsbD 0 then 320 else 620) + 7400 + n)] ++ transmitFrame g) ∧
  (∀ (h : Header) (g : Frame),
    normTrace (transmitFrame (buildFrame h 0xCC#8) ++ low 7400 ++ low 20000 ++ transmitFrame g) =
      (transmitFrame (buildFrame h 0xCC#8)).dropLast ++ [(false, 28020)] ++ transmitFrame g ∧
    normTrace (transmitFrame (buildFrame h 0xCC#8) ++ low 7400 ++ low 100000 ++ transmitFrame g) =
      (transmitFrame (buildFrame h 0xCC#8)).dropLast ++ [(false, 108020)] ++ transmitFrame g)

/-- 42_command_composer.md rules R105, R106: `send_pass` and `send_command`, unfolded transmission by transmission: the gap follows
every transmission, the passes are not interleaved; counts and lengths for every `n`. -/
def Obligations.PassesAndCommandsOnTheAir : Prop :=
  (∀ (f : Frame) (n : Nat),
    sendPass f n = (List.replicate n (transmitFrame f ++ [(false, 7400)])).flatten ∧
    dur (sendPass f n) = n * 50900 ∧
    (sendPass f n).countP (fun x => x == (true, 4500)) = n ∧
    risingEdges false (sendPass f n) = 41 * n) ∧
  (∀ (h : Header) (c : Code) (n : Nat),
    sendCommand h c n false = (List.replicate n (transmitFrame (buildFrame h c) ++ [(false, 7400)])).flatten ∧
    sendCommand h c n true =
      (List.replicate n (transmitFrame (buildFrame h c) ++ [(false, 7400)])).flatten ++
      (List.replicate n (transmitFrame (confirm (buildFrame h c)) ++ [(false, 7400)])).flatten ∧
    dur (sendCommand h c n false) = n * 50900 ∧ dur (sendCommand h c n true) = 2 * n * 50900) ∧
  dur (sendCommand 0x1F00421#28 0x11#8 6 true) = 610800

/-- 43_commands.md rules R116 to R119: the traces of the four primitive commands for every header and every `N`, the frames on the
air, the counts for `N = 6`, and that a trace depends on `channel` only through `channel & 0xF`. -/
def Obligations.PrimitiveCommandTraces : Prop :=
  (∀ (h : Header) (n : Nat),
    commandTrace 0#3 h n = sendPass (h ++ 0x011#12) n ++ sendPass (h ++ 0x01E#12) n ∧
    commandTrace 1#3 h n = sendPass (h ++ 0x033#12) n ++ sendPass (h ++ 0x03C#12) n ∧
    commandTrace 2#3 h n = sendPass (h ++ 0x055#12) n ∧
    commandTrace 3#3 h n = sendPass (h ++ 0x0CC#12) n ∧
    commandTrace 0#3 h n = sendCommand h 0x11#8 n true ∧ commandTrace 1#3 h n = sendCommand h 0x33#8 n true ∧
    commandTrace 2#3 h n = sendCommand h 0x55#8 n false ∧ commandTrace 3#3 h n = sendCommand h 0xCC#8 n false) ∧
  (∀ h : Header,
    dur (commandTrace 0#3 h 6) = 610800 ∧ dur (commandTrace 1#3 h 6) = 610800 ∧
    dur (commandTrace 2#3 h 6) = 305400 ∧ dur (commandTrace 3#3 h 6) = 305400 ∧
    risingEdges false (commandTrace 0#3 h 6) = 492 ∧ risingEdges false (commandTrace 1#3 h 6) = 492 ∧
    risingEdges false (commandTrace 2#3 h 6) = 246 ∧ risingEdges false (commandTrace 3#3 h 6) = 246) ∧
  (∀ (c : Config) (rid : RemoteId) (ch : ChannelPort),
    elementTrace c (.up rid ch) = commandTrace 0#3 (buildHeader c rid ch) c.repeatCount.toNat ∧
    elementTrace c (.down rid ch) = commandTrace 1#3 (buildHeader c rid ch) c.repeatCount.toNat ∧
    elementTrace c (.stop rid ch) = commandTrace 2#3 (buildHeader c rid ch) c.repeatCount.toNat ∧
    elementTrace c (.learn rid ch) = commandTrace 3#3 (buildHeader c rid ch) c.repeatCount.toNat ∧
    buildHeader c rid (ch &&& 0x0F#8) = buildHeader c rid ch) ∧
  commandTrace 0#3 (buildHeader Config.default 0x0042#16 1#8) 6 = sendPass 0x1F00421011#40 6 ++ sendPass 0x1F0042101E#40 6 ∧
  commandTrace 1#3 (buildHeader Config.default 0x0042#16 1#8) 6 = sendPass 0x1F00421033#40 6 ++ sendPass 0x1F0042103C#40 6 ∧
  commandTrace 2#3 (buildHeader Config.default 0x0042#16 1#8) 6 = sendPass 0x1F00421055#40 6 ∧
  commandTrace 3#3 (buildHeader Config.default 0x0042#16 1#8) 6 = sendPass 0x1F004210CC#40 6

/-- 44_gestures.md rules R126, R127 and 70_reset_and_hazards.md rule R179: the traces of the two gestures and the lengths of all six
commands for every `N`; the counts of a gesture for `N = 6`. -/
def Obligations.GestureTracesAndLengths : Prop :=
  (∀ (h : Header) (n : Nat),
    commandTrace 4#3 h n =
      commandTrace 3#3 h n ++ [(false, 20000)] ++ commandTrace 3#3 h n ++ [(false, 100000)] ++ commandTrace 0#3 h n ∧
    commandTrace 5#3 h n =
      commandTrace 3#3 h n ++ [(false, 20000)] ++ commandTrace 3#3 h n ++ [(false, 100000)] ++ commandTrace 1#3 h n ∧
    dur (commandTrace 0#3 h n) = 101800 * n ∧ dur (commandTrace 1#3 h n) = 101800 * n ∧
    dur (commandTrace 2#3 h n) = 50900 * n ∧ dur (commandTrace 3#3 h n) = 50900 * n ∧
    dur (commandTrace 4#3 h n) = 203600 * n + 120000 ∧ dur (commandTrace 5#3 h n) = 203600 * n + 120000) ∧
  (∀ h : Header,
    dur (commandTrace 4#3 h 6) = 1341600 ∧ dur (commandTrace 5#3 h 6) = 1341600 ∧
    risingEdges false (commandTrace 4#3 h 6) = 984 ∧ risingEdges false (commandTrace 5#3 h 6) = 984)

/-! ## What each element does at the tick at which it begins -/

/-- 43_commands.md rules R115 to R119 with 70_reset_and_hazards.md rule R166: in `IDLE` the four primitive commands are accepted;
every register not named keeps its value. -/
def Obligations.PrimitiveCommandsAreAccepted : Prop :=
  ∀ (s : State) (rid : RemoteId) (ch : ChannelPort), s.phase = .idle →
    exec (.up rid ch) s = .next { s with
      op := 0#3, hdrRid := rid, hdrCh := (ch &&& 0x0F#8).setWidth 4, done := false, stepIdx := 0#3,
      code := 0x11#8, conf := true, pass := false, rep := s.params.repeatCount,
      tx := true, phase := .syncHi, tmr := 4500 * s.params.ticksPerUs - 1 } ∧
    exec (.down rid ch) s = .next { s with
      op := 1#3, hdrRid := rid, hdrCh := (ch &&& 0x0F#8).setWidth 4, done := false, stepIdx := 0#3,
      code := 0x33#8, conf := true, pass := false, rep := s.params.repeatCount,
      tx := true, phase := .syncHi, tmr := 4500 * s.params.ticksPerUs - 1 } ∧
    exec (.stop rid ch) s = .next { s with
      op := 2#3, hdrRid := rid, hdrCh := (ch &&& 0x0F#8).setWidth 4, done := false, stepIdx := 0#3,
      code := 0x55#8, conf := false, pass := false, rep := s.params.repeatCount,
      tx := true, phase := .syncHi, tmr := 4500 * s.params.ticksPerUs - 1 } ∧
    exec (.learn rid ch) s = .next { s with
      op := 3#3, hdrRid := rid, hdrCh := (ch &&& 0x0F#8).setWidth 4, done := false, stepIdx := 0#3,
      code := 0xCC#8, conf := false, pass := false, rep := s.params.repeatCount,
      tx := true, phase := .syncHi, tmr := 4500 * s.params.ticksPerUs - 1 }

/-- 44_gestures.md rules R125 to R127 with 70_reset_and_hazards.md rule R166: in `IDLE` the two gestures are accepted, and begin with
a LEARN send. -/
def Obligations.GesturesAreAccepted : Prop :=
  ∀ (s : State) (rid : RemoteId) (ch : ChannelPort), s.phase = .idle →
    exec (.pair rid ch) s = .next { s with
      op := 4#3, hdrRid := rid, hdrCh := (ch &&& 0x0F#8).setWidth 4, done := false, stepIdx := 0#3,
      code := 0xCC#8, conf := false, pass := false, rep := s.params.repeatCount,
      tx := true, phase := .syncHi, tmr := 4500 * s.params.ticksPerUs - 1 } ∧
    exec (.chdir rid ch) s = .next { s with
      op := 5#3, hdrRid := rid, hdrCh := (ch &&& 0x0F#8).setWidth 4, done := false, stepIdx := 0#3,
      code := 0xCC#8, conf := false, pass := false, rep := s.params.repeatCount,
      tx := true, phase := .syncHi, tmr := 4500 * s.params.ticksPerUs - 1 }

/-- 60_exceptions.md rules R136, R137: in `IDLE` a reserved selector makes the four register writes of the fault and no other. -/
def Obligations.ReservedSelectorsTakeTheFault : Prop :=
  ∀ s : State, s.phase = .idle →
    exec .reserved6 s = .next { s with err := true, op := 6#3, done := false, phase := .fault } ∧
    exec .reserved7 s = .next { s with err := true, op := 7#3, done := false, phase := .fault }

/-- The model's choice in notes/assumptions/14.md (DEDUCED): `exec` of a request outside `IDLE` answers that same state, whichever
selector it carries. 60_exceptions.md rules R138 and R142, from which it is read, say only that the request is ignored while busy or
faulted, neither queued nor remembered; no step runs `exec` of a request there. -/
def Obligations.RequestsOutsideIdleChangeNothing : Prop :=
  ∀ (s : State) (rid : RemoteId) (ch : ChannelPort), s.phase ≠ .idle →
    exec (.up rid ch) s = .next s ∧ exec (.down rid ch) s = .next s ∧ exec (.stop rid ch) s = .next s ∧
    exec (.learn rid ch) s = .next s ∧ exec (.pair rid ch) s = .next s ∧ exec (.chdir rid ch) s = .next s ∧
    exec .reserved6 s = .next s ∧ exec .reserved7 s = .next s

/-- The model's reading of a frame row. Its meaning is the tick that begins its transmission with the sync pulse (41_frame_transmitter.md
rule R95; notes/assumptions/4.md); it loads `HDR.RID`, `HDR.CH`, `CODE` and `PASS` from the frame, so that `FRAME` is that frame, where
10_state.md rules R13, R14 and R19 give those writes to acceptance, the beginning of a SEND step and the like, and a step finds them
made already (notes/assumptions/18.md); a top byte `p` other than `PREFIX` is discarded (notes/assumptions/7.md); and it does not look at
`PHASE` (notes/assumptions/13.md). Every other register keeps its value. -/
def Obligations.FrameTransmissionsBegin : Prop :=
  ∀ (s : State) (p : PrefixBits) (rid : RemoteId) (ch : Channel),
    let begun (c : Code) (pass : Bool) : State := { s with
      hdrRid := rid, hdrCh := ch, code := c, pass := pass,
      tx := true, phase := .syncHi, tmr := 4500 * s.params.ticksPerUs - 1 }
    exec (.frameUpPrimary p rid ch) s = .next (begun 0x11#8 false) ∧
    exec (.frameUpConfirm p rid ch) s = .next (begun 0x11#8 true) ∧
    exec (.frameDownPrimary p rid ch) s = .next (begun 0x33#8 false) ∧
    exec (.frameDownConfirm p rid ch) s = .next (begun 0x33#8 true) ∧
    exec (.frameStop p rid ch) s = .next (begun 0x55#8 false) ∧
    exec (.frameLearn p rid ch) s = .next (begun 0xCC#8 false)

/-- After a well-formed frame's element, `FRAME` is that frame's own 40 bits (10_state.md rule R15, 30_encoding.md rule R73), for
each of the six; with another instance's top byte the header keeps its own `PREFIX` (10_state.md rule R12, the model's choice in
notes/assumptions/7.md). That the element loads the registers that `FRAME` is composed of is the model's reading
(notes/assumptions/18.md), and that it does so in every phase is its choice (notes/assumptions/13.md). -/
def Obligations.FrameRegisterHoldsTheFrameSent : Prop :=
  ∀ (s t : State) (i : Instr), (encode i).format = .frame → exec i s = .next t →
    t.hdr.extractLsb' 20 8 = s.params.pfx ∧
    t.frame.extractLsb' 0 32 = (BitVec.ofNat 40 (encode i).bits).extractLsb' 0 32 ∧
    (i.wellFormed s.params = true → t.frame.toNat = (encode i).bits)

/-- 40_pulse_driver.md rule R83 with 30_encoding.md rule R64: a symbol begins with its high time; only `TX`, `PHASE` and `TMR`
change. That a symbol row means this tick, in every phase, is the model's reading (notes/assumptions/4.md, 13.md). -/
def Obligations.SymbolsBeginHigh : Prop :=
  ∀ s : State,
    exec .sync s = .next { s with tx := true, phase := .syncHi, tmr := 4500 * s.params.ticksPerUs - 1 } ∧
    exec .bit0 s = .next { s with tx := true, phase := .bitHi, tmr := 320 * s.params.ticksPerUs - 1 } ∧
    exec .bit1 s = .next { s with tx := true, phase := .bitHi, tmr := 620 * s.params.ticksPerUs - 1 }

/-- 40_pulse_driver.md rule R86 with 30_encoding.md rule R67: a wait begins without a pin write; only `PHASE` and `TMR` change.
That a wait row means this tick, in every phase, is the model's reading (notes/assumptions/4.md, 13.md). -/
def Obligations.WaitsBeginWithoutAPinWrite : Prop :=
  ∀ s : State,
    exec .gap s = .next { s with phase := .gap, tmr := 7400 * s.params.ticksPerUs - 1 } ∧
    exec .waitInterpress s = .next { s with phase := .wait, tmr := 20000 * s.params.ticksPerUs - 1 } ∧
    exec .waitFinal s = .next { s with phase := .wait, tmr := 100000 * s.params.ticksPerUs - 1 }

/-- The frame of every element as the model has it: every element answers a next state in every state, and the registers it may write
are only those named here, by the row's format. It rests on the model's reading of a row as the tick at which it begins
(notes/assumptions/4.md), of a frame row as loading `HDR`, `CODE` and `PASS` (18.md; 10_state.md rules R13, R14 and R19 give those writes
to acceptance, the beginning of a SEND step and the like), and on its choices for a foreign top byte (7.md), for elements begun in
any phase (13.md), for a fault as a next state (8.md) and for a request outside `IDLE` (14.md). What an acceptance, a SEND step, a phase
change and a fault may write is 10_state.md sections 2 to 4. -/
def Obligations.ElementsWriteOnlyTheirRegisters : Prop :=
  ∀ (i : Instr) (s : State), ∃ t, exec i s = .next t ∧
    match (encode i).format with
    | .cmdsel => t = { s with
        op := t.op, hdrRid := t.hdrRid, hdrCh := t.hdrCh, done := t.done, stepIdx := t.stepIdx, code := t.code, conf := t.conf,
        pass := t.pass, rep := t.rep, tx := t.tx, phase := t.phase, tmr := t.tmr, err := t.err } ∧
        (i ≠ .reserved6 → i ≠ .reserved7 → t.err = s.err) ∧
        (i = .reserved6 ∨ i = .reserved7 → t = { s with op := t.op, done := t.done, phase := t.phase, err := t.err })
    | .frame => t = { s with
        hdrRid := t.hdrRid, hdrCh := t.hdrCh, code := t.code, pass := t.pass, tx := t.tx, phase := t.phase, tmr := t.tmr }
    | .symbolSync => t = { s with tx := t.tx, phase := t.phase, tmr := t.tmr }
    | .symbolBit => t = { s with tx := t.tx, phase := t.phase, tmr := t.tmr }
    | .waitGap => t = { s with phase := t.phase, tmr := t.tmr }
    | .waitInterpress => t = { s with phase := t.phase, tmr := t.tmr }
    | .waitFinal => t = { s with phase := t.phase, tmr := t.tmr }

/-! ## The step -/

/-- A step runs the element that the sequencer position and the bits there decode to, on the state with the ports moved on and the
position moved (70_reset_and_hazards.md rules R164, R166): the request in `IDLE`; the bit symbols after the sync pulse and after a
bit pulse; the gap after the last bit; the next transmission of a pass, and the first of the confirmation pass, wherever `FRAME` is
one of the six frames with `CODE` primary; the waits and the sends that begin the later steps of a gesture. A bit at an index of 40
or more and `REP - 1` at 0 are the model's free values (notes/assumptions/11.md, 17.md). -/
def Obligations.StepRunsTheDecodedElement : Prop :=
  ∀ s : State, s.params.wf = true → s.port.rst = false →
    (s.phase = .idle → s.port.start = true → step s = exec (decodeCommand s.port.word) s.consume) ∧
    (s.tmr = 0 →
      (s.phase = .syncLo →
        step s = exec (decodeBit (s.frame.getLsbD 39)) { s.consume with bitIdx := 39#6 }) ∧
      (s.phase = .bitLo → s.bitIdx ≠ 0#6 →
        step s = exec (decodeBit (frameBitAt s.frame (s.bitIdx.toNat - 1))) { s.consume with bitIdx := s.bitIdx - 1#6 }) ∧
      (s.phase = .bitLo → s.bitIdx = 0#6 → step s = exec .gap s.consume) ∧
      (∀ i, s.phase = .gap → s.rep ≠ 1#4 → s.code ∈ [0x11#8, 0x33#8, 0x55#8, 0xCC#8] →
        decode .frame s.frame.toNat = .ok i → step s = exec i { s.consume with rep := decRep s.rep }) ∧
      (∀ i, s.phase = .gap → s.rep = 1#4 → s.pass = false → s.conf = true → s.code ∈ [0x11#8, 0x33#8, 0x55#8, 0xCC#8] →
        decode .frame (confirm s.frame).toNat = .ok i →
        step s = exec i { s.consume with pass := true, rep := s.params.repeatCount }) ∧
      ((s.phase = .wait ∨ (s.phase = .gap ∧ s.rep = 1#4 ∧ (s.pass = true ∨ s.conf = false))) →
        (∀ c, (prog s.op)[s.stepIdx.toNat + 1]? = some (.send c) →
          ∃ i, decode .frame (buildFrame s.hdr c).toNat = .ok i ∧
            step s = exec i { s.consume with
              stepIdx := s.stepIdx + 1#3, code := c, conf := needsConf c, pass := false, rep := s.params.repeatCount }) ∧
        ((prog s.op)[s.stepIdx.toNat + 1]? = some (.wait .interpress) →
          step s = exec .waitInterpress { s.consume with stepIdx := s.stepIdx + 1#3 }) ∧
        ((prog s.op)[s.stepIdx.toNat + 1]? = some (.wait .final) →
          step s = exec .waitFinal { s.consume with stepIdx := s.stepIdx + 1#3 })))

/-- Every row of the opcode table is reached: whatever the state of an instance, an element placed where the next tick fetches runs
at that tick, on the placed state with its ports moved on and its position moved (the placing is the model's,
notes/assumptions/3.md). -/
def Obligations.PlacedElementsRun : Prop :=
  ∀ (i : Instr) (s : State), s.params.wf = true →
    match (encode i).format with
    | .cmdsel => step (placeElement i s) = exec i (placeElement i s).consume
    | .frame => step (placeElement i s) = exec i { (placeElement i s).consume with rep := 1#4 }
    | .symbolSync => step (placeElement i s) = exec i { (placeElement i s).consume with rep := 1#4 }
    | .symbolBit => step (placeElement i s) = exec i { (placeElement i s).consume with bitIdx := 16#6 }
    | .waitGap => step (placeElement i s) = exec i (placeElement i s).consume
    | .waitInterpress => step (placeElement i s) = exec i { (placeElement i s).consume with stepIdx := 1#3 }
    | .waitFinal => step (placeElement i s) = exec i { (placeElement i s).consume with stepIdx := 3#3 }

/-- 70_reset_and_hazards.md rule R166 with the tables of R165: in every state of an instance and for every value of the ports, where
the spec's step function gives a next state, the step answers that state; and in every state that meets the invariant it gives
one. In states that no run reaches the transcription uses the model's free values, for a frame bit at an index of 40 or more
(notes/assumptions/11.md) and for `REP - 1` at 0 (17.md), and stops where the step tables end (9.md); the parameters are those of the state
(1.md). -/
def Obligations.StepIsRuleR166 : Prop :=
  ∀ s : State, s.params.wf = true →
    (∀ t, ruleStep s.port s.consume = some t → step s = .next t) ∧
    (s.Inv → ∃ t, ruleStep s.port s.consume = some t)

/-- Where a step stops, the model's choice in notes/assumptions/9.md and 10.md: with the model's fault exactly where rule R166 looks up
a step that the tables of 44_gestures.md rule R125 do not have; with the model's refusal exactly where the parameters are those of no
instance (93_implementation_defined.md U10). -/
def Obligations.StepStopsOnlyOutsideTheTables : Prop :=
  ∀ s : State,
    (step s = .refused .notAnInstance ↔ s.params.wf = false) ∧
    (∀ m, step s ≠ .refused (.notModelled m)) ∧
    (step s = .fault .stepTableOverrun ↔ s.params.wf = true ∧ ruleStep s.port s.consume = none)

/-- 60_exceptions.md rule R144: simultaneous events at one tick, in the spec's order. -/
def Obligations.EventsAreResolvedInOrder : Prop :=
  ∀ s : State, s.params.wf = true →
    (s.port.rst = true → step s = .next (State.resetOf s.params s.inputs.tail)) ∧
    (s.port.rst = false → s.phase = .fault → step s = .next { s with inputs := s.inputs.tail }) ∧
    (s.port.rst = false → s.phase = .idle → s.port.start = true → 5 < s.port.cmd.toNat →
      step s = .next { s with
        err := true, op := s.port.cmd, done := false, phase := .fault, inputs := s.inputs.tail }) ∧
    (s.port.rst = false → s.phase = .idle → s.port.start = true → s.port.cmd.toNat ≤ 5 →
      ∃ t, step s = .next t ∧ t.op = s.port.cmd ∧ t.busy = true ∧ t.tx = true ∧ t.done = false ∧ t.err = s.err) ∧
    (s.port.rst = false → s.phase = .idle → s.port.start = false → step s = .next { s with inputs := s.inputs.tail }) ∧
    (s.port.rst = false → s.busy = true →
      (s.tmr ≠ 0 → step s = .next { s with tmr := s.tmr - 1, inputs := s.inputs.tail }) ∧
      (∀ t, s.tmr = 0 → s.Inv → step s = .next t → t.phase ≠ s.phase) ∧
      (∀ q : Ports, q.rst = false → step { s with inputs := q :: s.inputs.tail } = step s))

/-- 70_reset_and_hazards.md rule R160: a tick with `rst = 1` gives the reset state, whatever the state and the other inputs, and the
block stays in it while the reset is held. -/
def Obligations.ResetGivesTheResetState : Prop :=
  (∀ s : State, s.params.wf = true → s.port.rst = true → step s = .next (State.resetOf s.params s.inputs.tail)) ∧
  (∀ (s : State) (k : Nat), s.params.wf = true → k < s.inputs.length → (∀ p ∈ s.inputs.take (k + 1), p.rst = true) →
    runTicks (k + 1) s = .next (State.resetOf s.params (s.inputs.drop (k + 1)))) ∧
  (∀ (s : State) (p : Ports), s.params.wf = true → p.rst = false → s.phase = .idle → p.start = false →
    step { s with inputs := p :: s.inputs } = .next s)

/-- 70_reset_and_hazards.md rule R161: the reset state, register by register, and the outputs in it. -/
def Obligations.ResetStateRegisters : Prop :=
  ∀ (c : Config) (ins : List Ports),
    let r := State.resetOf c ins
    r.tx = false ∧ r.phase = .idle ∧ r.done = false ∧ r.err = false ∧ r.tmr = 0 ∧ r.bitIdx = 0#6 ∧ r.rep = 0#4 ∧
    r.pass = false ∧ r.conf = false ∧ r.stepIdx = 0#3 ∧ r.op = 0#3 ∧ r.code = 0x00#8 ∧ r.hdr = c.pfx ++ 0x0000#16 ++ 0x0#4 ∧
    r.outputs = { tx := false, busy := false, done := false, err := false }

/-- 60_exceptions.md rules R136, R137, R138: an illegal selector at an acceptance tick stops the block: the four register writes of
that tick, and from then on nothing changes, whatever the host does short of a reset. That the faulted block goes on as a next state
with `PHASE = FAULT` is the model's choice in notes/assumptions/8.md: R138 says that a model should treat `FAULT` as its fault
outcome. -/
def Obligations.IllegalSelectorStopsTheBlock : Prop :=
  ∀ (s : State) (cmd : Selector) (rid : RemoteId) (ch : ChannelPort) (k : Nat),
    s.params.wf = true → s.phase = .idle → s.Requests cmd rid ch → 5 < cmd.toNat → s.NoReset (k + 1) →
      runTicks (k + 1) s = .next { s with
        err := true, op := cmd, done := false, phase := .fault, inputs := s.inputs.drop (k + 1) } ∧
      (s.Inv → ∃ t, runTicks (k + 1) s = .next t ∧
        t.outputs = { tx := false, busy := false, done := false, err := true } ∧ t.hdr = s.hdr)

/-- 10_state.md rules R26, R27: when `DONE` and `ERR` are set and cleared, and that no other register depends on them. -/
def Obligations.StatusFlagsRules : Prop :=
  (∀ s t : State, step s = .next t →
    (t.err = true ↔ s.port.rst = false ∧
      (s.err = true ∨ (s.phase = .idle ∧ s.port.start = true ∧ 5 < s.port.cmd.toNat))) ∧
    (t.done = true ↔ s.port.rst = false ∧
      ((s.busy = true ∧ t.phase = .idle) ∨
        (s.done = true ∧ ¬ (s.phase = .idle ∧ s.port.start = true))))) ∧
  (∀ (s t : State) (d e : Bool), step s = .next t →
    ∃ d' e' : Bool, step { s with done := d, err := e } = .next { t with done := d', err := e' })

/-- 10_state.md rule R13, 20_memory.md rule R48, 44_gestures.md rule R129: `HDR` changes at an acceptance or a reset and at no other
tick; `OP` at those and at a fault. -/
def Obligations.HeaderChangesOnlyAtAcceptance : Prop :=
  ∀ s t : State, step s = .next t → s.port.rst = false →
    (¬ (s.phase = .idle ∧ s.port.start = true ∧ s.port.cmd.toNat ≤ 5) → t.hdr = s.hdr) ∧
    (¬ (s.phase = .idle ∧ s.port.start = true) → t.op = s.op)

/-- 00_scope.md rule R5: no step changes a parameter; and a step moves the ports on by exactly one tick (the model's port list,
notes/assumptions/2.md). -/
def Obligations.StepKeepsTheParameters : Prop :=
  ∀ s t : State, step s = .next t → t.params = s.params ∧ t.inputs = s.inputs.tail

/-- 60_exceptions.md rule R142 and 20_memory.md rule R48, 93_implementation_defined.md U15: at a tick that is not an acceptance tick,
and without a reset, the next state does not depend on `start` while busy, nor on `cmd`, `remote_id`, `channel` at all; and while busy `ERR` is not set. -/
def Obligations.PortsAreReadOnlyAtAcceptance : Prop :=
  (∀ (s : State) (p q : Ports) (ins : List Ports), p.rst = false → q.rst = false →
    (s.phase ≠ .idle ∨ (p.start = false ∧ q.start = false)) →
      step { s with inputs := p :: ins } = step { s with inputs := q :: ins }) ∧
  (∀ s t : State, s.busy = true → s.port.rst = false → step s = .next t → t.err = s.err)

/-! ## The invariant of the reachable states (10_state.md rule R34) -/

/-- The reset state of every instance meets the invariant; and `State.reset` is that of the instance with the default parameters of
00_scope.md rule R5 and with no ports listed, the model's choices in notes/assumptions/1.md and 2.md. -/
def Obligations.ResetMeetsTheInvariant : Prop :=
  (∀ (c : Config) (ins : List Ports), c.wf = true → (State.resetOf c ins).Inv) ∧
  State.reset = State.resetOf { pfx := 0x1F#8, repeatCount := 6#4, ticksPerUs := 1 } []

/-- Every step keeps the invariant, from every state that meets it. -/
def Obligations.StepKeepsTheInvariant : Prop :=
  ∀ s t : State, s.Inv → step s = .next t → t.Inv

/-- The invariant gives the clauses (a) to (i) of 10_state.md rule R34 as the spec words them, and rules R14 and R33: while busy `CODE`
is one of the four primary codes; an idle state is a canonical idle state. -/
def Obligations.ReachableStatesObeyR34 : Prop :=
  ∀ s : State, s.Inv →
    s.RuleR34 ∧
    (s.busy = true → s.code ∈ [0x11#8, 0x33#8, 0x55#8, 0xCC#8]) ∧
    (s.phase = .idle → s = State.canonicalIdle s.params s.op s.hdrRid s.hdrCh s.code s.done s.inputs) ∧
    s.tmr < 100000 * s.params.ticksPerUs

/-- From a state that meets the invariant every step answers a next state: the block is never stuck, and no run meets the model's own
fault or refusal (93_implementation_defined.md: "Nothing in the block is `stuck`"). -/
def Obligations.ReachableStatesNeverStop : Prop :=
  ∀ s : State, s.Inv → ∃ t, step s = .next t

/-! ## Runs: what appears on the pin -/

/-- 40_pulse_driver.md rule R83: a phase counts down one tick at a time and nothing else changes; the phase of a state with `TMR = n`
lasts `n + 1` ticks. -/
def Obligations.PhasesCountDown : Prop :=
  ∀ (s : State) (k : Nat), s.params.wf = true → s.busy = true → k ≤ s.tmr → s.NoReset k →
    runTicks k s = .next { s with tmr := s.tmr - k, inputs := s.inputs.drop k }

/-- 40_pulse_driver.md rules R81 to R83, R86: each symbol and each wait, from the tick at which it begins, puts exactly its trace on the
pin: `w.length` states in a row show `wave_T` of it, the last of them at `TMR = 0` in the element's last phase with nothing but
`PHASE`, `TMR` and `TX` changed. A bit symbol is begun where `FRAME[BITIDX]` is its bit, a wait where the pin is low, as the
sequencer does. -/
def Obligations.ElementsPutTheirTraceOnThePin : Prop :=
  ∀ (s : State) (i : Instr) (last : Phase), s.params.wf = true →
    ((i = .sync ∧ last = .syncLo) ∨ (i = .bit0 ∧ s.frameBit = false ∧ last = .bitLo) ∨
      (i = .bit1 ∧ s.frameBit = true ∧ last = .bitLo) ∨ (i = .gap ∧ s.tx = false ∧ last = .gap) ∨
      (i = .waitInterpress ∧ s.tx = false ∧ last = .wait) ∨ (i = .waitFinal ∧ s.tx = false ∧ last = .wait)) →
    ∃ t, exec i s = .next t ∧
      let w := wave s.params.ticksPerUs (elementTrace s.params i)
      (∀ (j : Nat) (hj : j < w.length), t.NoReset j → ∃ u, runTicks j t = .next u ∧ u.tx = w[j] ∧ u.busy = true) ∧
      (t.NoReset (w.length - 1) →
        runTicks (w.length - 1) t =
          .next { s with phase := last, tmr := 0, tx := false, inputs := s.inputs.drop (w.length - 1) })

/-- 41_frame_transmitter.md rules R95, R96: a transmission, from the first tick of its sync pulse, puts exactly
`wave_T(transmit_frame(FRAME))` on the pin, whatever 28 + 8 bits `HDR` and `CODE` hold, and then the gap begins; it takes
`43500 * T` ticks. -/
def Obligations.TransmissionPutsTheFrameOnThePin : Prop :=
  ∀ s : State, s.params.wf = true → s.phase = .syncHi → s.tx = true → s.tmr = 4500 * s.params.ticksPerUs - 1 →
    (wave s.params.ticksPerUs (transmitFrame s.frame)).length = 43500 * s.params.ticksPerUs ∧
    s.Emits (wave s.params.ticksPerUs (transmitFrame s.frame))
      { s with tx := false, phase := .gap, tmr := 7400 * s.params.ticksPerUs - 1, bitIdx := 0#6 }

/-- 43_commands.md rule R115 (70_reset_and_hazards.md rule R167): a command accepted in `IDLE` puts exactly its trace on the pin, tick by
tick, with `busy = 1` and `done = 0` throughout, whatever the host does on the other ports short of a reset; the state after it is the
canonical idle state with `DONE = 1` (`ERR` as it was: 0 in every reachable idle state). A selector of 6 or 7 is not a command and
faults instead; that this is a next state is the model's choice in notes/assumptions/8.md. -/
def Obligations.CommandsPutTheirTraceOnThePin : Prop :=
  (∀ (s : State) (cmd : Selector) (rid : RemoteId) (ch : ChannelPort),
      s.params.wf = true → s.phase = .idle → s.Requests cmd rid ch → cmd.toNat ≤ 5 →
        let h := buildHeader s.params rid ch
        let trace := commandTrace cmd h s.params.repeatCount.toNat
        let w := wave s.params.ticksPerUs trace
        (∃ u, runTicks 1 s = .next u ∧ u.op = cmd ∧ u.hdr = h ∧ u.done = false ∧ u.stepIdx = 0#3 ∧ u.tx = true ∧ u.busy = true) ∧
        w.length = dur trace * s.params.ticksPerUs ∧
        (∀ (j : Nat) (hj : j < w.length), s.NoReset (j + 1) →
          ∃ u, runTicks (j + 1) s = .next u ∧ u.tx = w[j] ∧ u.busy = true ∧ u.done = false ∧ u.err = s.err ∧ u.hdr = h) ∧
        (s.NoReset (w.length + 1) →
          runTicks (w.length + 1) s = .next { State.canonicalIdle s.params cmd rid (ch.extractLsb' 0 4) (lastCode cmd) true
            (s.inputs.drop (w.length + 1)) with err := s.err })) ∧
  (∀ (s : State) (cmd : Selector) (rid : RemoteId) (ch : ChannelPort),
    s.params.wf = true → s.phase = .idle → s.Requests cmd rid ch → 5 < cmd.toNat →
      ∃ u, step s = .next u ∧ u.phase = .fault ∧ u.err = true ∧ u.tx = s.tx ∧ u.busy = false)

/-- 60_exceptions.md rule R141 (the trace clause is one the spec marks as derived): a reset `k` ticks after the acceptance, `k` at most the
command's length, cuts the command: the pin shows the first `k` entries of its wave, and the next state is the reset state. -/
def Obligations.ResetCutsACommandShort : Prop :=
  ∀ (s : State) (cmd : Selector) (rid : RemoteId) (ch : ChannelPort) (k : Nat) (p : Ports),
    s.params.wf = true → s.phase = .idle → s.Requests cmd rid ch → cmd.toNat ≤ 5 →
    1 ≤ k → s.inputs[k]? = some p → p.rst = true → s.NoReset k →
      let w := wave s.params.ticksPerUs (commandTrace cmd (buildHeader s.params rid ch) s.params.repeatCount.toNat)
      k ≤ w.length →
        (∀ (j : Nat) (hj : j < w.length), j < k → ∃ u, runTicks (j + 1) s = .next u ∧ u.tx = w[j] ∧ u.busy = true) ∧
        runTicks (k + 1) s = .next (State.resetOf s.params (s.inputs.drop (k + 1)))

/-- 70_reset_and_hazards.md rule R182 (which the spec marks as derived): on one instance the same command with the same header gives the
same pin levels, tick by tick, from any two idle states and whatever else the hosts do: no hidden state is carried between
invocations. -/
def Obligations.RepeatedCommandsGiveTheSamePinTrace : Prop :=
  ∀ (s s' : State) (cmd : Selector) (rid : RemoteId) (ch ch' : ChannelPort) (j : Nat),
    s.params.wf = true → s'.params = s.params → s.phase = .idle → s'.phase = .idle →
    s.Requests cmd rid ch → s'.Requests cmd rid ch' → cmd.toNat ≤ 5 → ch.extractLsb' 0 4 = ch'.extractLsb' 0 4 →
    j ≤ dur (commandTrace cmd (buildHeader s.params rid ch) s.params.repeatCount.toNat) * s.params.ticksPerUs →
    s.NoReset (j + 1) → s'.NoReset (j + 1) →
      ∃ u u', runTicks (j + 1) s = .next u ∧ runTicks (j + 1) s' = .next u' ∧
        u.tx = u'.tx ∧ u.busy = u'.busy ∧ u.done = u'.done
end

