-- ==== Sys2Proof/Laws/Decode.lean ====
section
/-!
SUPPORT. The fields of a composed request and of a composed frame: what the decoder reads back, field by field.
-/

namespace Sys2Proof

variable (p : PrefixBits) (rid : RemoteId) (ch : Channel) (c : Code)

@[simp] theorem framePrefix_frameWord : framePrefix (frameWord p rid ch c) = p := by
  ext i hi
  simp only [framePrefix, frameWord, BitVec.getElem_extractLsb', BitVec.getLsbD_append]
  simp [show ¬ 32 + i < 8 by omega, show ¬ 32 + i - 8 < 4 by omega, show ¬ 32 + i - 8 - 4 < 4 by omega,
    show ¬ 32 + i - 8 - 4 - 4 < 16 by omega, show 32 + i - 8 - 4 - 4 - 16 = i by omega, hi]

@[simp] theorem frameRid_frameWord : frameRid (frameWord p rid ch c) = rid := by
  ext i hi
  simp only [frameRid, frameWord, BitVec.getElem_extractLsb', BitVec.getLsbD_append]
  simp [show ¬ 16 + i < 8 by omega, show ¬ 16 + i - 8 < 4 by omega, show ¬ 16 + i - 8 - 4 < 4 by omega,
    show 16 + i - 8 - 4 - 4 = i by omega, hi]

@[simp] theorem frameCh_frameWord : frameCh (frameWord p rid ch c) = ch := by
  ext i hi
  simp only [frameCh, frameWord, BitVec.getElem_extractLsb', BitVec.getLsbD_append]
  simp [show ¬ 12 + i < 8 by omega, show ¬ 12 + i - 8 < 4 by omega,
    show 12 + i - 8 - 4 = i by omega, hi]

@[simp] theorem frameRsv_frameWord : frameRsv (frameWord p rid ch c) = 0#4 := by
  ext i hi
  simp only [frameRsv, frameWord, BitVec.getElem_extractLsb', BitVec.getLsbD_append]
  simp [show ¬ 8 + i < 8 by omega]
  omega

@[simp] theorem frameCode_frameWord : frameCode (frameWord p rid ch c) = c := by
  ext i hi
  simp only [frameCode, frameWord, BitVec.getElem_extractLsb', BitVec.getLsbD_append]
  simp [hi]

/-- Bit `i` of the remote identity is frame bit `16 + i`. -/
theorem frameWord_getLsbD_rid (i : Nat) (hi : i < 16) :
    (frameWord p rid ch c).getLsbD (16 + i) = rid.getLsbD i := by
  have := congrArg (·.getLsbD i) (frameRid_frameWord p rid ch c)
  simpa [frameRid, hi] using this

/-- Bit `i` of the channel is frame bit `12 + i`. -/
theorem frameWord_getLsbD_ch (i : Nat) (hi : i < 4) :
    (frameWord p rid ch c).getLsbD (12 + i) = ch.getLsbD i := by
  have := congrArg (·.getLsbD i) (frameCh_frameWord p rid ch c)
  simpa [frameCh, hi] using this

/-- A frame with its reserved bits 0 is the composition of its own fields. -/
theorem frameWord_fields (f : Frame) (h : frameRsv f = 0#4) :
    frameWord (framePrefix f) (frameRid f) (frameCh f) (frameCode f) = f := by
  have h4 : ∀ i : Nat, i < 4 → f.getLsbD (8 + i) = false := fun i hi => by
    have := congrArg (·.getLsbD i) h
    simpa [frameRsv, hi] using this
  ext i hi
  simp only [frameWord, framePrefix, frameRid, frameCh, frameCode, ← BitVec.getLsbD_eq_getElem, BitVec.getLsbD_append,
    BitVec.getLsbD_extractLsb', BitVec.getLsbD_zero]
  split_ifs with h1 h2 h3 h5
  · simp [h1]
  · have := h4 (i - 8) h2
    rw [show 8 + (i - 8) = i by omega] at this
    exact this.symm
  · rw [show 12 + (i - 8 - 4) = i by omega]; simp [h3]
  · rw [show 16 + (i - 8 - 4 - 4) = i by omega]; simp [h5]
  · rw [show 32 + (i - 8 - 4 - 4 - 16) = i by omega]; simp; omega

variable (sel : Selector) (cp : ChannelPort)

@[simp] theorem requestWord_cmd : (requestWord sel rid cp).extractLsb' 0 3 = sel := by
  ext i hi
  simp only [requestWord, BitVec.getElem_extractLsb', BitVec.getLsbD_append]
  simp [hi]

@[simp] theorem requestWord_remoteId : (requestWord sel rid cp).extractLsb' 3 16 = rid := by
  ext i hi
  simp only [requestWord, BitVec.getElem_extractLsb', BitVec.getLsbD_append]
  simp [show ¬ 3 + i < 3 by omega, hi]

@[simp] theorem requestWord_channel : (requestWord sel rid cp).extractLsb' 19 8 = cp := by
  ext i hi
  simp only [requestWord, BitVec.getElem_extractLsb', BitVec.getLsbD_append]
  simp [show ¬ 19 + i < 3 by omega, show ¬ 19 + i - 3 < 16 by omega, show 19 + i - 3 - 16 = i by omega, hi]

/-- A request is the bundle of its own fields. -/
theorem requestWord_fields (w : RequestWord) :
    requestWord (w.extractLsb' 0 3) (w.extractLsb' 3 16) (w.extractLsb' 19 8) = w := by
  ext i hi
  simp only [requestWord, ← BitVec.getLsbD_eq_getElem, BitVec.getLsbD_append, BitVec.getLsbD_extractLsb']
  split_ifs with h1 h2
  · simp [h1]
  · rw [show 3 + (i - 3) = i by omega]; simp [h2]
  · rw [show 19 + (i - 3 - 16) = i by omega]; simp; omega

/-- The decoder on the bits of a frame. -/
theorem decode_frame_toNat (f : Frame) : decode .frame f.toNat = decodeFrame f := by
  unfold decode
  rw [if_neg (show ¬ 2 ^ Format.frame.width ≤ f.toNat from Nat.not_le.2 f.isLt)]
  simp

/-- The decoder on the bits of a request. -/
theorem decode_cmdsel_toNat (w : RequestWord) : decode .cmdsel w.toNat = .ok (decodeCommand w) := by
  unfold decode
  rw [if_neg (show ¬ 2 ^ Format.cmdsel.width ≤ w.toNat from Nat.not_le.2 w.isLt)]
  simp

/-- The frame decoder on a composed frame: by its code alone. -/
theorem decodeFrame_frameWord (p : PrefixBits) (rid : RemoteId) (ch : Channel) (c : Code) :
    decodeFrame (frameWord p rid ch c) =
      if c = codeUp then .ok (.frameUpPrimary p rid ch)
      else if c = confirmCode codeUp then .ok (.frameUpConfirm p rid ch)
      else if c = codeDown then .ok (.frameDownPrimary p rid ch)
      else if c = confirmCode codeDown then .ok (.frameDownConfirm p rid ch)
      else if c = codeStop then .ok (.frameStop p rid ch)
      else if c = codeLearn then .ok (.frameLearn p rid ch)
      else .error .unknownCode := by
  simp [decodeFrame]

end Sys2Proof

namespace Sys2Proof.Machine

/-- `FRAME` is the composition of the header's fields and the effective code. -/
theorem frame_eq_frameWord (s : State) : s.frame = frameWord s.params.pfx s.hdrRid s.hdrCh s.codeEff := rfl

end Sys2Proof.Machine
end

