-- ==== Sys2Proof/Laws/PerInstr.lean ====
section
/-!
SUPPORT. Families of statements about every constructor of Instr, one lemma for each.
-/

namespace Sys2Proof.Laws.EncodeFits

/-- The code of an element has no bit above its format's width (spec/opcode_table.json, "width"; for a request with the operand
ports, notes/assumptions/5.md). -/
def Statement (i : Instr) : Prop :=
  (encode i).bits < 2 ^ (encode i).format.width

theorem up (rid : RemoteId) (ch : ChannelPort) : Statement (.up rid ch) := (requestWord 0#3 rid ch).isLt
theorem down (rid : RemoteId) (ch : ChannelPort) : Statement (.down rid ch) := (requestWord 1#3 rid ch).isLt
theorem stop (rid : RemoteId) (ch : ChannelPort) : Statement (.stop rid ch) := (requestWord 2#3 rid ch).isLt
theorem learn (rid : RemoteId) (ch : ChannelPort) : Statement (.learn rid ch) := (requestWord 3#3 rid ch).isLt
theorem pair (rid : RemoteId) (ch : ChannelPort) : Statement (.pair rid ch) := (requestWord 4#3 rid ch).isLt
theorem chdir (rid : RemoteId) (ch : ChannelPort) : Statement (.chdir rid ch) := (requestWord 5#3 rid ch).isLt
theorem reserved6 : Statement .reserved6 := (requestWord 6#3 0#16 0#8).isLt
theorem reserved7 : Statement .reserved7 := (requestWord 7#3 0#16 0#8).isLt
theorem frameUpPrimary (p : PrefixBits) (rid : RemoteId) (ch : Channel) : Statement (.frameUpPrimary p rid ch) :=
  (frameWord p rid ch codeUp).isLt
theorem frameUpConfirm (p : PrefixBits) (rid : RemoteId) (ch : Channel) : Statement (.frameUpConfirm p rid ch) :=
  (frameWord p rid ch (confirmCode codeUp)).isLt
theorem frameDownPrimary (p : PrefixBits) (rid : RemoteId) (ch : Channel) : Statement (.frameDownPrimary p rid ch) :=
  (frameWord p rid ch codeDown).isLt
theorem frameDownConfirm (p : PrefixBits) (rid : RemoteId) (ch : Channel) : Statement (.frameDownConfirm p rid ch) :=
  (frameWord p rid ch (confirmCode codeDown)).isLt
theorem frameStop (p : PrefixBits) (rid : RemoteId) (ch : Channel) : Statement (.frameStop p rid ch) :=
  (frameWord p rid ch codeStop).isLt
theorem frameLearn (p : PrefixBits) (rid : RemoteId) (ch : Channel) : Statement (.frameLearn p rid ch) :=
  (frameWord p rid ch codeLearn).isLt
theorem sync : Statement .sync := by unfold Statement; decide
theorem bit0 : Statement .bit0 := by unfold Statement; decide
theorem bit1 : Statement .bit1 := by unfold Statement; decide
theorem gap : Statement .gap := by unfold Statement; decide
theorem waitInterpress : Statement .waitInterpress := by unfold Statement; decide
theorem waitFinal : Statement .waitFinal := by unfold Statement; decide

end Sys2Proof.Laws.EncodeFits
end

