-- ==== Sys2Proof/Laws/State.lean ====
section
/-!
SUPPORT. For each register update of Machine/Ops.lean, the value of each field after it: true by unfolding, tagged for simp, so
that no later proof unfolds a record update.
-/

namespace Sys2Proof.Machine

variable (s : State)

/-! `State.consume` -/

@[simp] theorem consume_params : (s.consume).params = s.params := rfl
@[simp] theorem consume_hdrRid : (s.consume).hdrRid = s.hdrRid := rfl
@[simp] theorem consume_hdrCh : (s.consume).hdrCh = s.hdrCh := rfl
@[simp] theorem consume_code : (s.consume).code = s.code := rfl
@[simp] theorem consume_op : (s.consume).op = s.op := rfl
@[simp] theorem consume_stepIdx : (s.consume).stepIdx = s.stepIdx := rfl
@[simp] theorem consume_pass : (s.consume).pass = s.pass := rfl
@[simp] theorem consume_conf : (s.consume).conf = s.conf := rfl
@[simp] theorem consume_rep : (s.consume).rep = s.rep := rfl
@[simp] theorem consume_bitIdx : (s.consume).bitIdx = s.bitIdx := rfl
@[simp] theorem consume_phase : (s.consume).phase = s.phase := rfl
@[simp] theorem consume_tmr : (s.consume).tmr = s.tmr := rfl
@[simp] theorem consume_tx : (s.consume).tx = s.tx := rfl
@[simp] theorem consume_done : (s.consume).done = s.done := rfl
@[simp] theorem consume_err : (s.consume).err = s.err := rfl
@[simp] theorem consume_inputs : (s.consume).inputs = s.inputs.tail := rfl

/-! `pinWrite` -/

@[simp] theorem pinWrite_params (l : Bool) : (pinWrite l s).params = s.params := rfl
@[simp] theorem pinWrite_hdrRid (l : Bool) : (pinWrite l s).hdrRid = s.hdrRid := rfl
@[simp] theorem pinWrite_hdrCh (l : Bool) : (pinWrite l s).hdrCh = s.hdrCh := rfl
@[simp] theorem pinWrite_code (l : Bool) : (pinWrite l s).code = s.code := rfl
@[simp] theorem pinWrite_op (l : Bool) : (pinWrite l s).op = s.op := rfl
@[simp] theorem pinWrite_stepIdx (l : Bool) : (pinWrite l s).stepIdx = s.stepIdx := rfl
@[simp] theorem pinWrite_pass (l : Bool) : (pinWrite l s).pass = s.pass := rfl
@[simp] theorem pinWrite_conf (l : Bool) : (pinWrite l s).conf = s.conf := rfl
@[simp] theorem pinWrite_rep (l : Bool) : (pinWrite l s).rep = s.rep := rfl
@[simp] theorem pinWrite_bitIdx (l : Bool) : (pinWrite l s).bitIdx = s.bitIdx := rfl
@[simp] theorem pinWrite_phase (l : Bool) : (pinWrite l s).phase = s.phase := rfl
@[simp] theorem pinWrite_tmr (l : Bool) : (pinWrite l s).tmr = s.tmr := rfl
@[simp] theorem pinWrite_tx (l : Bool) : (pinWrite l s).tx = l := rfl
@[simp] theorem pinWrite_done (l : Bool) : (pinWrite l s).done = s.done := rfl
@[simp] theorem pinWrite_err (l : Bool) : (pinWrite l s).err = s.err := rfl
@[simp] theorem pinWrite_inputs (l : Bool) : (pinWrite l s).inputs = s.inputs := rfl

/-! `enterPhase` -/

@[simp] theorem enterPhase_params (ph : Phase) (d : Nat) : (enterPhase ph d s).params = s.params := rfl
@[simp] theorem enterPhase_hdrRid (ph : Phase) (d : Nat) : (enterPhase ph d s).hdrRid = s.hdrRid := rfl
@[simp] theorem enterPhase_hdrCh (ph : Phase) (d : Nat) : (enterPhase ph d s).hdrCh = s.hdrCh := rfl
@[simp] theorem enterPhase_code (ph : Phase) (d : Nat) : (enterPhase ph d s).code = s.code := rfl
@[simp] theorem enterPhase_op (ph : Phase) (d : Nat) : (enterPhase ph d s).op = s.op := rfl
@[simp] theorem enterPhase_stepIdx (ph : Phase) (d : Nat) : (enterPhase ph d s).stepIdx = s.stepIdx := rfl
@[simp] theorem enterPhase_pass (ph : Phase) (d : Nat) : (enterPhase ph d s).pass = s.pass := rfl
@[simp] theorem enterPhase_conf (ph : Phase) (d : Nat) : (enterPhase ph d s).conf = s.conf := rfl
@[simp] theorem enterPhase_rep (ph : Phase) (d : Nat) : (enterPhase ph d s).rep = s.rep := rfl
@[simp] theorem enterPhase_bitIdx (ph : Phase) (d : Nat) : (enterPhase ph d s).bitIdx = s.bitIdx := rfl
@[simp] theorem enterPhase_phase (ph : Phase) (d : Nat) : (enterPhase ph d s).phase = ph := rfl
@[simp] theorem enterPhase_tmr (ph : Phase) (d : Nat) : (enterPhase ph d s).tmr = load s.params d := rfl
@[simp] theorem enterPhase_tx (ph : Phase) (d : Nat) : (enterPhase ph d s).tx = s.tx := rfl
@[simp] theorem enterPhase_done (ph : Phase) (d : Nat) : (enterPhase ph d s).done = s.done := rfl
@[simp] theorem enterPhase_err (ph : Phase) (d : Nat) : (enterPhase ph d s).err = s.err := rfl
@[simp] theorem enterPhase_inputs (ph : Phase) (d : Nat) : (enterPhase ph d s).inputs = s.inputs := rfl

/-! `countDown` -/

@[simp] theorem countDown_params : (countDown s).params = s.params := rfl
@[simp] theorem countDown_hdrRid : (countDown s).hdrRid = s.hdrRid := rfl
@[simp] theorem countDown_hdrCh : (countDown s).hdrCh = s.hdrCh := rfl
@[simp] theorem countDown_code : (countDown s).code = s.code := rfl
@[simp] theorem countDown_op : (countDown s).op = s.op := rfl
@[simp] theorem countDown_stepIdx : (countDown s).stepIdx = s.stepIdx := rfl
@[simp] theorem countDown_pass : (countDown s).pass = s.pass := rfl
@[simp] theorem countDown_conf : (countDown s).conf = s.conf := rfl
@[simp] theorem countDown_rep : (countDown s).rep = s.rep := rfl
@[simp] theorem countDown_bitIdx : (countDown s).bitIdx = s.bitIdx := rfl
@[simp] theorem countDown_phase : (countDown s).phase = s.phase := rfl
@[simp] theorem countDown_tmr : (countDown s).tmr = s.tmr - 1 := rfl
@[simp] theorem countDown_tx : (countDown s).tx = s.tx := rfl
@[simp] theorem countDown_done : (countDown s).done = s.done := rfl
@[simp] theorem countDown_err : (countDown s).err = s.err := rfl
@[simp] theorem countDown_inputs : (countDown s).inputs = s.inputs := rfl

/-! `latchRequest` -/

@[simp] theorem latchRequest_params (sel : Selector) (rid : RemoteId) (ch : ChannelPort) : (latchRequest sel rid ch s).params = s.params := rfl
@[simp] theorem latchRequest_hdrRid (sel : Selector) (rid : RemoteId) (ch : ChannelPort) : (latchRequest sel rid ch s).hdrRid = rid := rfl
@[simp] theorem latchRequest_hdrCh (sel : Selector) (rid : RemoteId) (ch : ChannelPort) : (latchRequest sel rid ch s).hdrCh = maskChannel ch := rfl
@[simp] theorem latchRequest_code (sel : Selector) (rid : RemoteId) (ch : ChannelPort) : (latchRequest sel rid ch s).code = s.code := rfl
@[simp] theorem latchRequest_op (sel : Selector) (rid : RemoteId) (ch : ChannelPort) : (latchRequest sel rid ch s).op = sel := rfl
@[simp] theorem latchRequest_stepIdx (sel : Selector) (rid : RemoteId) (ch : ChannelPort) : (latchRequest sel rid ch s).stepIdx = 0#3 := rfl
@[simp] theorem latchRequest_pass (sel : Selector) (rid : RemoteId) (ch : ChannelPort) : (latchRequest sel rid ch s).pass = s.pass := rfl
@[simp] theorem latchRequest_conf (sel : Selector) (rid : RemoteId) (ch : ChannelPort) : (latchRequest sel rid ch s).conf = s.conf := rfl
@[simp] theorem latchRequest_rep (sel : Selector) (rid : RemoteId) (ch : ChannelPort) : (latchRequest sel rid ch s).rep = s.rep := rfl
@[simp] theorem latchRequest_bitIdx (sel : Selector) (rid : RemoteId) (ch : ChannelPort) : (latchRequest sel rid ch s).bitIdx = s.bitIdx := rfl
@[simp] theorem latchRequest_phase (sel : Selector) (rid : RemoteId) (ch : ChannelPort) : (latchRequest sel rid ch s).phase = s.phase := rfl
@[simp] theorem latchRequest_tmr (sel : Selector) (rid : RemoteId) (ch : ChannelPort) : (latchRequest sel rid ch s).tmr = s.tmr := rfl
@[simp] theorem latchRequest_tx (sel : Selector) (rid : RemoteId) (ch : ChannelPort) : (latchRequest sel rid ch s).tx = s.tx := rfl
@[simp] theorem latchRequest_done (sel : Selector) (rid : RemoteId) (ch : ChannelPort) : (latchRequest sel rid ch s).done = false := rfl
@[simp] theorem latchRequest_err (sel : Selector) (rid : RemoteId) (ch : ChannelPort) : (latchRequest sel rid ch s).err = s.err := rfl
@[simp] theorem latchRequest_inputs (sel : Selector) (rid : RemoteId) (ch : ChannelPort) : (latchRequest sel rid ch s).inputs = s.inputs := rfl

/-! `loadSend` -/

@[simp] theorem loadSend_params (c : Code) : (loadSend c s).params = s.params := rfl
@[simp] theorem loadSend_hdrRid (c : Code) : (loadSend c s).hdrRid = s.hdrRid := rfl
@[simp] theorem loadSend_hdrCh (c : Code) : (loadSend c s).hdrCh = s.hdrCh := rfl
@[simp] theorem loadSend_code (c : Code) : (loadSend c s).code = c := rfl
@[simp] theorem loadSend_op (c : Code) : (loadSend c s).op = s.op := rfl
@[simp] theorem loadSend_stepIdx (c : Code) : (loadSend c s).stepIdx = s.stepIdx := rfl
@[simp] theorem loadSend_pass (c : Code) : (loadSend c s).pass = false := rfl
@[simp] theorem loadSend_conf (c : Code) : (loadSend c s).conf = needsConf c := rfl
@[simp] theorem loadSend_rep (c : Code) : (loadSend c s).rep = s.params.repeatCount := rfl
@[simp] theorem loadSend_bitIdx (c : Code) : (loadSend c s).bitIdx = s.bitIdx := rfl
@[simp] theorem loadSend_phase (c : Code) : (loadSend c s).phase = s.phase := rfl
@[simp] theorem loadSend_tmr (c : Code) : (loadSend c s).tmr = s.tmr := rfl
@[simp] theorem loadSend_tx (c : Code) : (loadSend c s).tx = s.tx := rfl
@[simp] theorem loadSend_done (c : Code) : (loadSend c s).done = s.done := rfl
@[simp] theorem loadSend_err (c : Code) : (loadSend c s).err = s.err := rfl
@[simp] theorem loadSend_inputs (c : Code) : (loadSend c s).inputs = s.inputs := rfl

/-! `beginConfirmPass` -/

@[simp] theorem beginConfirmPass_params : (beginConfirmPass s).params = s.params := rfl
@[simp] theorem beginConfirmPass_hdrRid : (beginConfirmPass s).hdrRid = s.hdrRid := rfl
@[simp] theorem beginConfirmPass_hdrCh : (beginConfirmPass s).hdrCh = s.hdrCh := rfl
@[simp] theorem beginConfirmPass_code : (beginConfirmPass s).code = s.code := rfl
@[simp] theorem beginConfirmPass_op : (beginConfirmPass s).op = s.op := rfl
@[simp] theorem beginConfirmPass_stepIdx : (beginConfirmPass s).stepIdx = s.stepIdx := rfl
@[simp] theorem beginConfirmPass_pass : (beginConfirmPass s).pass = true := rfl
@[simp] theorem beginConfirmPass_conf : (beginConfirmPass s).conf = s.conf := rfl
@[simp] theorem beginConfirmPass_rep : (beginConfirmPass s).rep = s.params.repeatCount := rfl
@[simp] theorem beginConfirmPass_bitIdx : (beginConfirmPass s).bitIdx = s.bitIdx := rfl
@[simp] theorem beginConfirmPass_phase : (beginConfirmPass s).phase = s.phase := rfl
@[simp] theorem beginConfirmPass_tmr : (beginConfirmPass s).tmr = s.tmr := rfl
@[simp] theorem beginConfirmPass_tx : (beginConfirmPass s).tx = s.tx := rfl
@[simp] theorem beginConfirmPass_done : (beginConfirmPass s).done = s.done := rfl
@[simp] theorem beginConfirmPass_err : (beginConfirmPass s).err = s.err := rfl
@[simp] theorem beginConfirmPass_inputs : (beginConfirmPass s).inputs = s.inputs := rfl

/-! `complete` -/

@[simp] theorem complete_params : (complete s).params = s.params := rfl
@[simp] theorem complete_hdrRid : (complete s).hdrRid = s.hdrRid := rfl
@[simp] theorem complete_hdrCh : (complete s).hdrCh = s.hdrCh := rfl
@[simp] theorem complete_code : (complete s).code = s.code := rfl
@[simp] theorem complete_op : (complete s).op = s.op := rfl
@[simp] theorem complete_stepIdx : (complete s).stepIdx = 0#3 := rfl
@[simp] theorem complete_pass : (complete s).pass = false := rfl
@[simp] theorem complete_conf : (complete s).conf = false := rfl
@[simp] theorem complete_rep : (complete s).rep = 0#4 := rfl
@[simp] theorem complete_bitIdx : (complete s).bitIdx = 0#6 := rfl
@[simp] theorem complete_phase : (complete s).phase = .idle := rfl
@[simp] theorem complete_tmr : (complete s).tmr = s.tmr := rfl
@[simp] theorem complete_tx : (complete s).tx = s.tx := rfl
@[simp] theorem complete_done : (complete s).done = true := rfl
@[simp] theorem complete_err : (complete s).err = s.err := rfl
@[simp] theorem complete_inputs : (complete s).inputs = s.inputs := rfl

/-! `raiseIllegalCommand` -/

@[simp] theorem raiseIllegalCommand_params (sel : Selector) : (raiseIllegalCommand sel s).params = s.params := rfl
@[simp] theorem raiseIllegalCommand_hdrRid (sel : Selector) : (raiseIllegalCommand sel s).hdrRid = s.hdrRid := rfl
@[simp] theorem raiseIllegalCommand_hdrCh (sel : Selector) : (raiseIllegalCommand sel s).hdrCh = s.hdrCh := rfl
@[simp] theorem raiseIllegalCommand_code (sel : Selector) : (raiseIllegalCommand sel s).code = s.code := rfl
@[simp] theorem raiseIllegalCommand_op (sel : Selector) : (raiseIllegalCommand sel s).op = sel := rfl
@[simp] theorem raiseIllegalCommand_stepIdx (sel : Selector) : (raiseIllegalCommand sel s).stepIdx = s.stepIdx := rfl
@[simp] theorem raiseIllegalCommand_pass (sel : Selector) : (raiseIllegalCommand sel s).pass = s.pass := rfl
@[simp] theorem raiseIllegalCommand_conf (sel : Selector) : (raiseIllegalCommand sel s).conf = s.conf := rfl
@[simp] theorem raiseIllegalCommand_rep (sel : Selector) : (raiseIllegalCommand sel s).rep = s.rep := rfl
@[simp] theorem raiseIllegalCommand_bitIdx (sel : Selector) : (raiseIllegalCommand sel s).bitIdx = s.bitIdx := rfl
@[simp] theorem raiseIllegalCommand_phase (sel : Selector) : (raiseIllegalCommand sel s).phase = .fault := rfl
@[simp] theorem raiseIllegalCommand_tmr (sel : Selector) : (raiseIllegalCommand sel s).tmr = s.tmr := rfl
@[simp] theorem raiseIllegalCommand_tx (sel : Selector) : (raiseIllegalCommand sel s).tx = s.tx := rfl
@[simp] theorem raiseIllegalCommand_done (sel : Selector) : (raiseIllegalCommand sel s).done = false := rfl
@[simp] theorem raiseIllegalCommand_err (sel : Selector) : (raiseIllegalCommand sel s).err = true := rfl
@[simp] theorem raiseIllegalCommand_inputs (sel : Selector) : (raiseIllegalCommand sel s).inputs = s.inputs := rfl

/-! `startFrame` -/

@[simp] theorem startFrame_params : (startFrame s).params = s.params := rfl
@[simp] theorem startFrame_hdrRid : (startFrame s).hdrRid = s.hdrRid := rfl
@[simp] theorem startFrame_hdrCh : (startFrame s).hdrCh = s.hdrCh := rfl
@[simp] theorem startFrame_code : (startFrame s).code = s.code := rfl
@[simp] theorem startFrame_op : (startFrame s).op = s.op := rfl
@[simp] theorem startFrame_stepIdx : (startFrame s).stepIdx = s.stepIdx := rfl
@[simp] theorem startFrame_pass : (startFrame s).pass = s.pass := rfl
@[simp] theorem startFrame_conf : (startFrame s).conf = s.conf := rfl
@[simp] theorem startFrame_rep : (startFrame s).rep = s.rep := rfl
@[simp] theorem startFrame_bitIdx : (startFrame s).bitIdx = s.bitIdx := rfl
@[simp] theorem startFrame_phase : (startFrame s).phase = .syncHi := rfl
@[simp] theorem startFrame_tmr : (startFrame s).tmr = load s.params syncHiUs := rfl
@[simp] theorem startFrame_tx : (startFrame s).tx = true := rfl
@[simp] theorem startFrame_done : (startFrame s).done = s.done := rfl
@[simp] theorem startFrame_err : (startFrame s).err = s.err := rfl
@[simp] theorem startFrame_inputs : (startFrame s).inputs = s.inputs := rfl

/-! `startBit` -/

@[simp] theorem startBit_params (b : Bool) : (startBit b s).params = s.params := rfl
@[simp] theorem startBit_hdrRid (b : Bool) : (startBit b s).hdrRid = s.hdrRid := rfl
@[simp] theorem startBit_hdrCh (b : Bool) : (startBit b s).hdrCh = s.hdrCh := rfl
@[simp] theorem startBit_code (b : Bool) : (startBit b s).code = s.code := rfl
@[simp] theorem startBit_op (b : Bool) : (startBit b s).op = s.op := rfl
@[simp] theorem startBit_stepIdx (b : Bool) : (startBit b s).stepIdx = s.stepIdx := rfl
@[simp] theorem startBit_pass (b : Bool) : (startBit b s).pass = s.pass := rfl
@[simp] theorem startBit_conf (b : Bool) : (startBit b s).conf = s.conf := rfl
@[simp] theorem startBit_rep (b : Bool) : (startBit b s).rep = s.rep := rfl
@[simp] theorem startBit_bitIdx (b : Bool) : (startBit b s).bitIdx = s.bitIdx := rfl
@[simp] theorem startBit_phase (b : Bool) : (startBit b s).phase = .bitHi := rfl
@[simp] theorem startBit_tmr (b : Bool) : (startBit b s).tmr = load s.params (bitHiUs b) := rfl
@[simp] theorem startBit_tx (b : Bool) : (startBit b s).tx = true := rfl
@[simp] theorem startBit_done (b : Bool) : (startBit b s).done = s.done := rfl
@[simp] theorem startBit_err (b : Bool) : (startBit b s).err = s.err := rfl
@[simp] theorem startBit_inputs (b : Bool) : (startBit b s).inputs = s.inputs := rfl

/-! `syncLow` -/

@[simp] theorem syncLow_params : (syncLow s).params = s.params := rfl
@[simp] theorem syncLow_hdrRid : (syncLow s).hdrRid = s.hdrRid := rfl
@[simp] theorem syncLow_hdrCh : (syncLow s).hdrCh = s.hdrCh := rfl
@[simp] theorem syncLow_code : (syncLow s).code = s.code := rfl
@[simp] theorem syncLow_op : (syncLow s).op = s.op := rfl
@[simp] theorem syncLow_stepIdx : (syncLow s).stepIdx = s.stepIdx := rfl
@[simp] theorem syncLow_pass : (syncLow s).pass = s.pass := rfl
@[simp] theorem syncLow_conf : (syncLow s).conf = s.conf := rfl
@[simp] theorem syncLow_rep : (syncLow s).rep = s.rep := rfl
@[simp] theorem syncLow_bitIdx : (syncLow s).bitIdx = s.bitIdx := rfl
@[simp] theorem syncLow_phase : (syncLow s).phase = .syncLo := rfl
@[simp] theorem syncLow_tmr : (syncLow s).tmr = load s.params syncLoUs := rfl
@[simp] theorem syncLow_tx : (syncLow s).tx = false := rfl
@[simp] theorem syncLow_done : (syncLow s).done = s.done := rfl
@[simp] theorem syncLow_err : (syncLow s).err = s.err := rfl
@[simp] theorem syncLow_inputs : (syncLow s).inputs = s.inputs := rfl

/-! `bitLow` -/

@[simp] theorem bitLow_params : (bitLow s).params = s.params := rfl
@[simp] theorem bitLow_hdrRid : (bitLow s).hdrRid = s.hdrRid := rfl
@[simp] theorem bitLow_hdrCh : (bitLow s).hdrCh = s.hdrCh := rfl
@[simp] theorem bitLow_code : (bitLow s).code = s.code := rfl
@[simp] theorem bitLow_op : (bitLow s).op = s.op := rfl
@[simp] theorem bitLow_stepIdx : (bitLow s).stepIdx = s.stepIdx := rfl
@[simp] theorem bitLow_pass : (bitLow s).pass = s.pass := rfl
@[simp] theorem bitLow_conf : (bitLow s).conf = s.conf := rfl
@[simp] theorem bitLow_rep : (bitLow s).rep = s.rep := rfl
@[simp] theorem bitLow_bitIdx : (bitLow s).bitIdx = s.bitIdx := rfl
@[simp] theorem bitLow_phase : (bitLow s).phase = .bitLo := rfl
@[simp] theorem bitLow_tmr : (bitLow s).tmr = load s.params (bitLoUs s.frameBit) := rfl
@[simp] theorem bitLow_tx : (bitLow s).tx = false := rfl
@[simp] theorem bitLow_done : (bitLow s).done = s.done := rfl
@[simp] theorem bitLow_err : (bitLow s).err = s.err := rfl
@[simp] theorem bitLow_inputs : (bitLow s).inputs = s.inputs := rfl

/-! `startDelay` -/

@[simp] theorem startDelay_params (ph : Phase) (d : Nat) : (startDelay ph d s).params = s.params := rfl
@[simp] theorem startDelay_hdrRid (ph : Phase) (d : Nat) : (startDelay ph d s).hdrRid = s.hdrRid := rfl
@[simp] theorem startDelay_hdrCh (ph : Phase) (d : Nat) : (startDelay ph d s).hdrCh = s.hdrCh := rfl
@[simp] theorem startDelay_code (ph : Phase) (d : Nat) : (startDelay ph d s).code = s.code := rfl
@[simp] theorem startDelay_op (ph : Phase) (d : Nat) : (startDelay ph d s).op = s.op := rfl
@[simp] theorem startDelay_stepIdx (ph : Phase) (d : Nat) : (startDelay ph d s).stepIdx = s.stepIdx := rfl
@[simp] theorem startDelay_pass (ph : Phase) (d : Nat) : (startDelay ph d s).pass = s.pass := rfl
@[simp] theorem startDelay_conf (ph : Phase) (d : Nat) : (startDelay ph d s).conf = s.conf := rfl
@[simp] theorem startDelay_rep (ph : Phase) (d : Nat) : (startDelay ph d s).rep = s.rep := rfl
@[simp] theorem startDelay_bitIdx (ph : Phase) (d : Nat) : (startDelay ph d s).bitIdx = s.bitIdx := rfl
@[simp] theorem startDelay_phase (ph : Phase) (d : Nat) : (startDelay ph d s).phase = ph := rfl
@[simp] theorem startDelay_tmr (ph : Phase) (d : Nat) : (startDelay ph d s).tmr = load s.params d := rfl
@[simp] theorem startDelay_tx (ph : Phase) (d : Nat) : (startDelay ph d s).tx = s.tx := rfl
@[simp] theorem startDelay_done (ph : Phase) (d : Nat) : (startDelay ph d s).done = s.done := rfl
@[simp] theorem startDelay_err (ph : Phase) (d : Nat) : (startDelay ph d s).err = s.err := rfl
@[simp] theorem startDelay_inputs (ph : Phase) (d : Nat) : (startDelay ph d s).inputs = s.inputs := rfl

/-! `transmit` -/

@[simp] theorem transmit_params (c : Code) (b : Bool) (rid : RemoteId) (ch : Channel) : (transmit c b rid ch s).params = s.params := rfl
@[simp] theorem transmit_hdrRid (c : Code) (b : Bool) (rid : RemoteId) (ch : Channel) : (transmit c b rid ch s).hdrRid = rid := rfl
@[simp] theorem transmit_hdrCh (c : Code) (b : Bool) (rid : RemoteId) (ch : Channel) : (transmit c b rid ch s).hdrCh = ch := rfl
@[simp] theorem transmit_code (c : Code) (b : Bool) (rid : RemoteId) (ch : Channel) : (transmit c b rid ch s).code = c := rfl
@[simp] theorem transmit_op (c : Code) (b : Bool) (rid : RemoteId) (ch : Channel) : (transmit c b rid ch s).op = s.op := rfl
@[simp] theorem transmit_stepIdx (c : Code) (b : Bool) (rid : RemoteId) (ch : Channel) : (transmit c b rid ch s).stepIdx = s.stepIdx := rfl
@[simp] theorem transmit_pass (c : Code) (b : Bool) (rid : RemoteId) (ch : Channel) : (transmit c b rid ch s).pass = b := rfl
@[simp] theorem transmit_conf (c : Code) (b : Bool) (rid : RemoteId) (ch : Channel) : (transmit c b rid ch s).conf = s.conf := rfl
@[simp] theorem transmit_rep (c : Code) (b : Bool) (rid : RemoteId) (ch : Channel) : (transmit c b rid ch s).rep = s.rep := rfl
@[simp] theorem transmit_bitIdx (c : Code) (b : Bool) (rid : RemoteId) (ch : Channel) : (transmit c b rid ch s).bitIdx = s.bitIdx := rfl
@[simp] theorem transmit_phase (c : Code) (b : Bool) (rid : RemoteId) (ch : Channel) : (transmit c b rid ch s).phase = .syncHi := rfl
@[simp] theorem transmit_tmr (c : Code) (b : Bool) (rid : RemoteId) (ch : Channel) : (transmit c b rid ch s).tmr = load s.params syncHiUs := rfl
@[simp] theorem transmit_tx (c : Code) (b : Bool) (rid : RemoteId) (ch : Channel) : (transmit c b rid ch s).tx = true := rfl
@[simp] theorem transmit_done (c : Code) (b : Bool) (rid : RemoteId) (ch : Channel) : (transmit c b rid ch s).done = s.done := rfl
@[simp] theorem transmit_err (c : Code) (b : Bool) (rid : RemoteId) (ch : Channel) : (transmit c b rid ch s).err = s.err := rfl
@[simp] theorem transmit_inputs (c : Code) (b : Bool) (rid : RemoteId) (ch : Channel) : (transmit c b rid ch s).inputs = s.inputs := rfl

/-- Where `REP` is not 0, `decRep` is the decrement. -/
theorem decRep_of_ne {r : BitVec 4} (h : r ≠ 0#4) : decRep r = r - 1#4 := if_neg h

/-- On the bits that exist, `frameBitAt` reads the frame. -/
theorem frameBitAt_of_lt {f : Frame} {i : Nat} (h : i < 40) : frameBitAt f i = f.getLsbD i := if_pos h

end Sys2Proof.Machine
end

