-- ==== Sys2Proof/Laws/Sequencer.lean ====
section
/-!
SUPPORT. What the elements that the sequencer begins do, said once for each way it begins one, so that later proofs unfold neither
the decoder nor the dispatch.
-/

namespace Sys2Proof.Machine

/-- Loading the registers `FRAME` reads with the values they have changes nothing. -/
theorem transmit_self (s : State) : transmit s.code s.pass s.hdrRid s.hdrCh s = startFrame s := rfl

theorem frameRsv_frame (s : State) : frameRsv s.frame = 0#4 := by
  rw [frame_eq_frameWord]; exact frameRsv_frameWord ..

theorem frameCode_frame (s : State) : frameCode s.frame = s.codeEff := by
  rw [frame_eq_frameWord]; exact frameCode_frameWord ..

/-- The start of a transmission is `start_frame()` in every state, whichever element it is decoded to. -/
theorem exec_transmission (s : State) : exec (transmission s) s = .next (startFrame s) := by
  unfold transmission
  split
  · rfl
  · rename_i i h
    split
    · rename_i hc
      have hr : s.hdrRid = frameRid s.frame := by rw [frame_eq_frameWord, frameRid_frameWord]
      have hh : s.hdrCh = frameCh s.frame := by rw [frame_eq_frameWord, frameCh_frameWord]
      rw [← transmit_self s]
      simp only [decodeFrame, frameRsv_frame, frameCode_frame, ne_eq, not_true_eq_false, if_false] at h
      cases hp : s.pass <;> simp only [State.codeEff, hp, if_true, Bool.false_eq_true, if_false] at h <;>
        rcases hc with hc | hc | hc | hc <;> rw [hc] at h <;>
        simp [codeUp, codeDown, codeStop, codeLearn, confirmCode] at h <;> subst h <;>
        simp only [exec, execFrameUpPrimary, execFrameUpConfirm, execFrameDownPrimary, execFrameDownConfirm,
          execFrameStop, execFrameLearn, hc, ← hr, ← hh]
    · rfl

theorem exec_decodeBit (b : Bool) (s : State) : exec (decodeBit b) s = .next (startBit b s) := by
  cases b <;> rfl

theorem exec_waitElement (w : WaitKind) (s : State) :
    exec (waitElement w) s = .next (startDelay .wait (waitUs w) s) := by
  cases w <;> rfl

/-- A decoded request whose selector names a command is the issue of that command with the first code of its step table. -/
theorem exec_request_legal (cmd : Selector) (rid : RemoteId) (ch : ChannelPort) (s : State) (h : cmd.toNat ≤ 5) :
    ∃ c, (prog cmd)[0]? = some (.send c) ∧
      exec (decodeCommand (requestWord cmd rid ch)) s = .next (issueCommand cmd c rid ch s) := by
  simp only [decodeCommand, requestWord_cmd, requestWord_remoteId, requestWord_channel]
  have hc : cmd = 0#3 ∨ cmd = 1#3 ∨ cmd = 2#3 ∨ cmd = 3#3 ∨ cmd = 4#3 ∨ cmd = 5#3 := by
    simp only [BitVec.toNat_eq]; simp; omega
  rcases hc with rfl | rfl | rfl | rfl | rfl | rfl
  · exact ⟨codeUp, rfl, rfl⟩
  · exact ⟨codeDown, rfl, rfl⟩
  · exact ⟨codeStop, rfl, rfl⟩
  · exact ⟨codeLearn, rfl, rfl⟩
  · exact ⟨codeLearn, rfl, rfl⟩
  · exact ⟨codeLearn, rfl, rfl⟩

/-- A decoded request whose selector names no command. -/
theorem exec_request_illegal (cmd : Selector) (rid : RemoteId) (ch : ChannelPort) (s : State) (h : 5 < cmd.toNat) :
    exec (decodeCommand (requestWord cmd rid ch)) s = .next (issueReserved cmd s) := by
  simp only [decodeCommand, requestWord_cmd, requestWord_remoteId, requestWord_channel]
  have hc : cmd = 6#3 ∨ cmd = 7#3 := by
    have := cmd.isLt
    simp only [BitVec.toNat_eq]; simp; omega
  rcases hc with rfl | rfl <;> rfl

/-! ## The tick, phase by phase -/

variable {s : State}

theorem step_of_wf (h : s.params.wf = true) : step s = tick s := by
  simp [step, h]

theorem tick_reset (h : s.port.rst = true) : tick s = .next (applyReset s.consume) := by
  simp [tick, h]

theorem tick_run (h : s.port.rst = false) : tick s = runTick s.port s.consume := by
  simp [tick, h]

theorem busy_iff : s.busy = true ↔ s.phase ≠ .idle ∧ s.phase ≠ .fault := by
  simp [State.busy]

/-- A busy tick with `TMR` not 0 only counts down. -/
theorem runTick_countDown (p : Ports) (hb : s.busy = true) (ht : s.tmr ≠ 0) : runTick p s = .next (countDown s) := by
  rw [busy_iff] at hb
  unfold runTick
  split <;> simp_all

/-- A busy tick with `TMR = 0` ends the phase. -/
theorem runTick_phaseEnd (p : Ports) (hb : s.busy = true) (ht : s.tmr = 0) :
    runTick p s = runBoundary (phaseEnd s) := by
  rw [busy_iff] at hb
  unfold runTick
  split <;> simp_all

theorem runTick_idle_hold (p : Ports) (hp : s.phase = .idle) (hs : p.start = false) : runTick p s = .next s := by
  simp [runTick, hp, hs]

theorem runTick_idle_start (p : Ports) (hp : s.phase = .idle) (hs : p.start = true) :
    runTick p s = exec (decodeCommand p.word) s := by
  simp [runTick, hp, hs]

theorem runTick_fault (p : Ports) (hp : s.phase = .fault) : runTick p s = .next s := by
  simp [runTick, hp]

/-- The end of the sync pulse's high time. -/
theorem runTick_syncHi (p : Ports) (hp : s.phase = .syncHi) (ht : s.tmr = 0) : runTick p s = .next (syncLow s) := by
  rw [runTick_phaseEnd p (by simp [busy_iff, hp]) ht]; simp [phaseEnd, hp, runBoundary]

/-- The end of the sync pulse: bit 39 begins. -/
theorem runTick_syncLo (p : Ports) (hp : s.phase = .syncLo) (ht : s.tmr = 0) :
    runTick p s = .next (startBit (s.frame.getLsbD 39) { s with bitIdx := 39#6 }) := by
  rw [runTick_phaseEnd p (by simp [busy_iff, hp]) ht]
  simp only [phaseEnd, hp, bitPulse, runBoundary, exec_decodeBit]; rfl

/-- The end of a bit pulse's high time. -/
theorem runTick_bitHi (p : Ports) (hp : s.phase = .bitHi) (ht : s.tmr = 0) : runTick p s = .next (bitLow s) := by
  rw [runTick_phaseEnd p (by simp [busy_iff, hp]) ht]; simp [phaseEnd, hp, runBoundary]

/-- The end of a bit pulse but the last: the next lower bit begins. -/
theorem runTick_bitLo_next (p : Ports) (hp : s.phase = .bitLo) (ht : s.tmr = 0) (hb : s.bitIdx ≠ 0#6) :
    runTick p s =
      .next (startBit (frameBitAt s.frame (s.bitIdx.toNat - 1)) { s with bitIdx := s.bitIdx - 1#6 }) := by
  rw [runTick_phaseEnd p (by simp [busy_iff, hp]) ht]
  have h1 : (s.bitIdx - 1#6).toNat = s.bitIdx.toNat - 1 := by
    have : s.bitIdx.toNat ≠ 0 := fun h => hb (BitVec.eq_of_toNat_eq h)
    bv_omega
  simp only [phaseEnd, hp, bitPulse, runBoundary, if_pos hb, exec_decodeBit, State.frameBit, h1]; rfl

/-- The end of the last bit pulse: the gap begins. -/
theorem runTick_bitLo_last (p : Ports) (hp : s.phase = .bitLo) (ht : s.tmr = 0) (hb : s.bitIdx = 0#6) :
    runTick p s = .next (startDelay .gap gapUs s) := by
  rw [runTick_phaseEnd p (by simp [busy_iff, hp]) ht]; simp [phaseEnd, hp, hb, runBoundary, exec, execGap]

/-- The end of a gap with transmissions left in the pass. -/
theorem runTick_gap_again (p : Ports) (hp : s.phase = .gap) (ht : s.tmr = 0) (hr : s.rep ≠ 1#4) :
    runTick p s = .next (startFrame { s with rep := decRep s.rep }) := by
  rw [runTick_phaseEnd p (by simp [busy_iff, hp]) ht]
  simp only [phaseEnd, hp, gapEnd, runBoundary, if_pos hr, exec_transmission]

/-- The end of a primary pass that a confirmation pass follows. -/
theorem runTick_gap_confirm (p : Ports) (hp : s.phase = .gap) (ht : s.tmr = 0) (hr : s.rep = 1#4)
    (h : s.pass = false ∧ s.conf = true) : runTick p s = .next (startFrame (beginConfirmPass s)) := by
  rw [runTick_phaseEnd p (by simp [busy_iff, hp]) ht]
  simp only [phaseEnd, hp, gapEnd, hr, ne_eq, not_true_eq_false, if_false, if_pos h, runBoundary, exec_transmission]

/-- What `advance()` leads to. -/
def advanceOutcome (s : State) : Host.Outcome State Fault Refusal :=
  if s.stepIdx.toNat + 1 = (prog s.op).length then .next (complete s)
  else
    match (prog s.op)[s.stepIdx.toNat + 1]? with
    | none => .fault .stepTableOverrun
    | some (.send c) => .next (startFrame (loadSend c { s with stepIdx := s.stepIdx + 1#3 }))
    | some (.wait w) => .next (startDelay .wait (waitUs w) { s with stepIdx := s.stepIdx + 1#3 })

theorem outcome_advance (s : State) :
    runBoundary (advance s) = advanceOutcome s := by
  unfold advance advanceOutcome
  split
  · rfl
  · rcases (prog s.op)[s.stepIdx.toNat + 1]? with _ | c | w
    · rfl
    · exact exec_transmission _
    · exact exec_waitElement _ _

/-- The end of a SEND step. -/
theorem runTick_gap_advance (p : Ports) (hp : s.phase = .gap) (ht : s.tmr = 0) (hr : s.rep = 1#4)
    (h : ¬ (s.pass = false ∧ s.conf = true)) : runTick p s = advanceOutcome s := by
  rw [runTick_phaseEnd p (by simp [busy_iff, hp]) ht, ← outcome_advance]
  simp only [phaseEnd, hp, gapEnd, hr, ne_eq, not_true_eq_false, if_false, if_neg h]

/-- The end of a WAIT step. -/
theorem runTick_wait (p : Ports) (hp : s.phase = .wait) (ht : s.tmr = 0) : runTick p s = advanceOutcome s := by
  rw [runTick_phaseEnd p (by simp [busy_iff, hp]) ht, ← outcome_advance]
  simp only [phaseEnd, hp]

end Sys2Proof.Machine
end

