-- ==== Sys2Proof/Laws/Step.lean ====
section
/-!
SUPPORT. Everything one tick can do, said once: `TickCase p s t` lists the ways from `s` (its ports already moved on) to `t` at the
ports `p`, guards included, and `step_cases` says that a step that answers a next state is one of them. `step_of_case` is the other
direction.
-/

namespace Sys2Proof.Machine

/-- The ways a tick leads from `s` to `t`. -/
inductive TickCase (p : Ports) (s : State) : State → Prop where
  /-- `rst = 1`. -/
  | reset (h : p.rst = true) : TickCase p s (applyReset s)
  /-- `FAULT` holds. -/
  | faultHold (h : p.rst = false) (hp : s.phase = .fault) : TickCase p s s
  /-- `IDLE` without `start`. -/
  | idleHold (h : p.rst = false) (hp : s.phase = .idle) (hs : p.start = false) : TickCase p s s
  /-- An illegal selector at an acceptance tick. -/
  | illegal (h : p.rst = false) (hp : s.phase = .idle) (hs : p.start = true) (hc : 5 < p.cmd.toNat) :
      TickCase p s (raiseIllegalCommand p.cmd s)
  /-- Acceptance; `c` is the code of the first step. -/
  | accept (h : p.rst = false) (hp : s.phase = .idle) (hs : p.start = true) (hc : p.cmd.toNat ≤ 5) (c : Code)
      (hf : (prog p.cmd)[0]? = some (.send c)) :
      TickCase p s (startFrame (loadSend c (latchRequest p.cmd p.remoteId p.channel s)))
  /-- A phase goes on. -/
  | countDown (h : p.rst = false) (hb : s.busy = true) (ht : s.tmr ≠ 0) : TickCase p s (countDown s)
  /-- The sync pulse goes low. -/
  | syncLow (h : p.rst = false) (hp : s.phase = .syncHi) (ht : s.tmr = 0) : TickCase p s (syncLow s)
  /-- Bit 39 begins. -/
  | firstBit (h : p.rst = false) (hp : s.phase = .syncLo) (ht : s.tmr = 0) :
      TickCase p s (startBit (s.frame.getLsbD 39) { s with bitIdx := 39#6 })
  /-- A bit pulse goes low. -/
  | bitLow (h : p.rst = false) (hp : s.phase = .bitHi) (ht : s.tmr = 0) : TickCase p s (bitLow s)
  /-- The next lower bit begins. -/
  | nextBit (h : p.rst = false) (hp : s.phase = .bitLo) (ht : s.tmr = 0) (hb : s.bitIdx ≠ 0#6) :
      TickCase p s (startBit (frameBitAt s.frame (s.bitIdx.toNat - 1)) { s with bitIdx := s.bitIdx - 1#6 })
  /-- The gap begins. -/
  | gap (h : p.rst = false) (hp : s.phase = .bitLo) (ht : s.tmr = 0) (hb : s.bitIdx = 0#6) :
      TickCase p s (startDelay .gap gapUs s)
  /-- The next transmission of a pass begins. -/
  | again (h : p.rst = false) (hp : s.phase = .gap) (ht : s.tmr = 0) (hr : s.rep ≠ 1#4) :
      TickCase p s (startFrame { s with rep := decRep s.rep })
  /-- The confirmation pass begins. -/
  | confirm (h : p.rst = false) (hp : s.phase = .gap) (ht : s.tmr = 0) (hr : s.rep = 1#4)
      (hc : s.pass = false ∧ s.conf = true) : TickCase p s (startFrame (beginConfirmPass s))
  /-- Completion. -/
  | complete (h : p.rst = false) (ht : s.tmr = 0)
      (hp : s.phase = .wait ∨ (s.phase = .gap ∧ s.rep = 1#4 ∧ ¬ (s.pass = false ∧ s.conf = true)))
      (hl : s.stepIdx.toNat + 1 = (prog s.op).length) : TickCase p s (complete s)
  /-- The next step is a SEND. -/
  | nextSend (h : p.rst = false) (ht : s.tmr = 0)
      (hp : s.phase = .wait ∨ (s.phase = .gap ∧ s.rep = 1#4 ∧ ¬ (s.pass = false ∧ s.conf = true)))
      (c : Code) (hn : (prog s.op)[s.stepIdx.toNat + 1]? = some (.send c)) :
      TickCase p s (startFrame (loadSend c { s with stepIdx := s.stepIdx + 1#3 }))
  /-- The next step is a WAIT. -/
  | nextWait (h : p.rst = false) (ht : s.tmr = 0)
      (hp : s.phase = .wait ∨ (s.phase = .gap ∧ s.rep = 1#4 ∧ ¬ (s.pass = false ∧ s.conf = true)))
      (w : WaitKind) (hn : (prog s.op)[s.stepIdx.toNat + 1]? = some (.wait w)) :
      TickCase p s (startDelay .wait (waitUs w) { s with stepIdx := s.stepIdx + 1#3 })

variable {p : Ports} {s t : State}

/-- The end of a step, read backwards. -/
theorem advanceOutcome_cases (h : p.rst = false) (ht : s.tmr = 0)
    (hp : s.phase = .wait ∨ (s.phase = .gap ∧ s.rep = 1#4 ∧ ¬ (s.pass = false ∧ s.conf = true)))
    (hn : advanceOutcome s = .next t) : TickCase p s t := by
  unfold advanceOutcome at hn
  split at hn
  · cases hn; exact .complete h ht hp ‹_›
  · split at hn
    · cases hn
    · cases hn; exact .nextSend h ht hp _ ‹_›
    · cases hn; exact .nextWait h ht hp _ ‹_›

/-- A tick without reset that answers a next state is one of the cases. -/
theorem runTick_cases (h : p.rst = false) (hn : runTick p s = .next t) : TickCase p s t := by
  have busyCase (hb : s.busy = true) : TickCase p s t ∨ s.tmr = 0 := by
    by_cases ht : s.tmr = 0
    · exact .inr ht
    · rw [runTick_countDown p hb ht] at hn
      cases hn; exact .inl (.countDown h hb ht)
  cases hp : s.phase with
  | idle =>
    cases hs : p.start with
    | false => rw [runTick_idle_hold p hp hs] at hn; cases hn; exact .idleHold h hp hs
    | true =>
      rw [runTick_idle_start p hp hs] at hn
      by_cases hc : p.cmd.toNat ≤ 5
      · obtain ⟨c, hf, he⟩ := exec_request_legal p.cmd p.remoteId p.channel s hc
        rw [Ports.word, he, issueCommand, if_pos hp] at hn
        cases hn; exact .accept h hp hs hc c hf
      · rw [Ports.word, exec_request_illegal _ _ _ _ (by omega), issueReserved, if_pos hp] at hn
        cases hn; exact .illegal h hp hs (by omega)
  | fault => rw [runTick_fault p hp] at hn; cases hn; exact .faultHold h hp
  | syncHi =>
    rcases busyCase (by simp [busy_iff, hp]) with hc | ht
    · exact hc
    · rw [runTick_syncHi p hp ht] at hn; cases hn; exact .syncLow h hp ht
  | syncLo =>
    rcases busyCase (by simp [busy_iff, hp]) with hc | ht
    · exact hc
    · rw [runTick_syncLo p hp ht] at hn; cases hn; exact .firstBit h hp ht
  | bitHi =>
    rcases busyCase (by simp [busy_iff, hp]) with hc | ht
    · exact hc
    · rw [runTick_bitHi p hp ht] at hn; cases hn; exact .bitLow h hp ht
  | bitLo =>
    rcases busyCase (by simp [busy_iff, hp]) with hc | ht
    · exact hc
    · by_cases hb : s.bitIdx = 0#6
      · rw [runTick_bitLo_last p hp ht hb] at hn; cases hn; exact .gap h hp ht hb
      · rw [runTick_bitLo_next p hp ht hb] at hn; cases hn; exact .nextBit h hp ht hb
  | gap =>
    rcases busyCase (by simp [busy_iff, hp]) with hc | ht
    · exact hc
    · by_cases hr : s.rep = 1#4
      · by_cases hc : s.pass = false ∧ s.conf = true
        · rw [runTick_gap_confirm p hp ht hr hc] at hn; cases hn; exact .confirm h hp ht hr hc
        · rw [runTick_gap_advance p hp ht hr hc] at hn
          exact advanceOutcome_cases h ht (.inr ⟨hp, hr, hc⟩) hn
      · rw [runTick_gap_again p hp ht hr] at hn; cases hn; exact .again h hp ht hr
  | wait =>
    rcases busyCase (by simp [busy_iff, hp]) with hc | ht
    · exact hc
    · rw [runTick_wait p hp ht] at hn
      exact advanceOutcome_cases h ht (.inl hp) hn

/-- A step that answers a next state is one of the cases, on an instance of the block. -/
theorem step_cases (hn : step s = .next t) : s.params.wf = true ∧ TickCase s.port s.consume t := by
  by_cases hw : s.params.wf = true
  · refine ⟨hw, ?_⟩
    rw [step_of_wf hw] at hn
    cases hr : s.port.rst with
    | true => rw [tick_reset hr] at hn; cases hn; exact .reset hr
    | false => rw [tick_run hr] at hn; exact runTick_cases hr hn
  · simp [step, hw] at hn

/-- Every case is what the step does. -/
theorem step_of_case (hw : s.params.wf = true) (hc : TickCase s.port s.consume t) : step s = .next t := by
  rw [step_of_wf hw]
  have length_of {op : Selector} {i : Nat} {x : CmdStep} (h : (prog op)[i]? = some x) : ¬ i = (prog op).length := by
    have := (List.getElem?_eq_some_iff.1 h).1
    omega
  cases hc with
  | reset h => exact tick_reset h
  | faultHold h hp => rw [tick_run h, runTick_fault _ hp]
  | idleHold h hp hs => rw [tick_run h, runTick_idle_hold _ hp hs]
  | illegal h hp hs hc =>
    rw [tick_run h, runTick_idle_start _ hp hs, Ports.word, exec_request_illegal _ _ _ _ hc, issueReserved, if_pos hp]
  | accept h hp hs hc c hf =>
    obtain ⟨c', hf', he⟩ := exec_request_legal s.port.cmd s.port.remoteId s.port.channel s.consume hc
    obtain rfl : c' = c := by simpa [hf'] using hf
    rw [tick_run h, runTick_idle_start _ hp hs, Ports.word, he, issueCommand, if_pos hp]
  | countDown h hb ht => rw [tick_run h, runTick_countDown _ hb ht]
  | syncLow h hp ht => rw [tick_run h, runTick_syncHi _ hp ht]
  | firstBit h hp ht => rw [tick_run h, runTick_syncLo _ hp ht]
  | bitLow h hp ht => rw [tick_run h, runTick_bitHi _ hp ht]
  | nextBit h hp ht hb => rw [tick_run h, runTick_bitLo_next _ hp ht hb]
  | gap h hp ht hb => rw [tick_run h, runTick_bitLo_last _ hp ht hb]
  | again h hp ht hr => rw [tick_run h, runTick_gap_again _ hp ht hr]
  | confirm h hp ht hr hc => rw [tick_run h, runTick_gap_confirm _ hp ht hr hc]
  | complete h ht hp hl =>
    rw [tick_run h]
    rcases hp with hp | ⟨hp, hr, hc⟩
    · rw [runTick_wait _ hp ht, advanceOutcome, if_pos hl]
    · rw [runTick_gap_advance _ hp ht hr hc, advanceOutcome, if_pos hl]
  | nextSend h ht hp c hn =>
    rw [tick_run h]
    rcases hp with hp | ⟨hp, hr, hc⟩
    · rw [runTick_wait _ hp ht, advanceOutcome, if_neg (length_of hn), hn]
    · rw [runTick_gap_advance _ hp ht hr hc, advanceOutcome, if_neg (length_of hn), hn]
  | nextWait h ht hp w hn =>
    rw [tick_run h]
    rcases hp with hp | ⟨hp, hr, hc⟩
    · rw [runTick_wait _ hp ht, advanceOutcome, if_neg (length_of hn), hn]
    · rw [runTick_gap_advance _ hp ht hr hc, advanceOutcome, if_neg (length_of hn), hn]

end Sys2Proof.Machine
end

