-- ==== Sys2Proof/Laws/Trace.lean ====
section
/-!
SUPPORT. The bits of a composed frame and of a confirmation frame, and how lengths and waves of traces compose.
-/

namespace Sys2Proof.Machine

/-- A composed frame bit by bit. -/
theorem getLsbD_buildFrame (h : Header) (c : Code) (i : Nat) :
    (buildFrame h c).getLsbD i = if i < 8 then c.getLsbD i else if i < 12 then false else h.getLsbD (i - 12) := by
  simp only [buildFrame, BitVec.getLsbD_append, BitVec.getLsbD_zero]
  split_ifs <;> first | rfl | omega

/-- A confirmation frame bit by bit. -/
theorem getLsbD_confirm (f : Frame) (i : Nat) : (confirm f).getLsbD i = (decide (i < 4) ^^ f.getLsbD i) := by
  simp only [confirm, BitVec.getLsbD_append, BitVec.getLsbD_xor, BitVec.getLsbD_extractLsb']
  split_ifs with h
  · have : i = 0 ∨ i = 1 ∨ i = 2 ∨ i = 3 := by omega
    rcases this with rfl | rfl | rfl | rfl <;> simp
  · rw [show 4 + (i - 4) = i by omega]
    simp only [h, decide_false, Bool.false_xor, Bool.and_eq_right_iff_imp, decide_eq_true_eq]
    intro hh
    by_contra hc
    rw [BitVec.getLsbD_of_ge f i (by omega)] at hh
    cases hh

/-- A confirmation code bit by bit. -/
theorem getLsbD_confirmCode (c : Code) (i : Nat) (hi : i < 8) :
    (confirmCode c).getLsbD i = (decide (i < 4) ^^ c.getLsbD i) := by
  simp only [confirmCode, BitVec.getLsbD_or, BitVec.getLsbD_and, BitVec.getLsbD_xor]
  interval_cases i <;> simp

/-- The channel field is the low four bits of the port. -/
theorem maskChannel_eq (ch : ChannelPort) : maskChannel ch = ch.extractLsb' 0 4 := by
  unfold maskChannel
  apply BitVec.eq_of_getLsbD_eq
  intro i hi
  simp only [BitVec.getLsbD_setWidth, BitVec.getLsbD_and, BitVec.getLsbD_extractLsb']
  have : i = 0 ∨ i = 1 ∨ i = 2 ∨ i = 3 := by omega
  rcases this with rfl | rfl | rfl | rfl <;> simp

theorem dur_append (t u : Trace) : dur (t ++ u) = dur t + dur u := by
  induction t with
  | nil => simp [dur]
  | cons a r ih => simp [dur, ih]; omega

theorem highTime_append (t u : Trace) : highTime (t ++ u) = highTime t + highTime u := by
  induction t with
  | nil => simp [highTime]
  | cons a r ih => simp [highTime, ih]; omega

theorem wave_append (T : Nat) (t u : Trace) : wave T (t ++ u) = wave T t ++ wave T u := by
  induction t with
  | nil => rfl
  | cons a r ih => obtain ⟨l, d⟩ := a; simp [wave, ih]

/-- A wave has one entry per tick. -/
theorem wave_length (T : Nat) (t : Trace) : (wave T t).length = dur t * T := by
  induction t with
  | nil => simp [wave, dur]
  | cons a r ih => obtain ⟨l, d⟩ := a; simp [wave, ih, dur, Nat.add_mul]

/-- The bit symbols of a frame are two segments each. -/
theorem bitsTrace_length (f : Frame) (n : Nat) : (bitsTrace f n).length = 2 * n := by
  induction n with
  | zero => rfl
  | succ n ih => simp [bitsTrace, ih, sym, pulse]; omega

end Sys2Proof.Machine
end

