-- ==== Sys2Proof/Laws/Run.lean ====
section
/-!
SUPPORT. Runs of several ticks: how they compose, and `State.Emits` (what the pin shows over a stretch of a run) tick by tick, phase
by phase and end to end.
-/

namespace Sys2Proof.Machine

variable {s t u : State} {j k : Nat}

theorem runTicks_zero (s : State) : runTicks 0 s = .next s := rfl

/-- One step of a run. -/
theorem runTicks_unfold (k : Nat) (s : State) :
    runTicks (k + 1) s = match step s with
      | .next s' => runTicks k s'
      | .fault r => .fault r
      | .refused r => .refused r :=
  (Host.Core.run.eq_2 Sys2Proof.core s k).trans (by cases h : step s <;> simp_all [core, runTicks])

theorem runTicks_succ (h : step s = .next t) : runTicks (k + 1) s = runTicks k t := by
  rw [runTicks_unfold, h]

theorem runTicks_add (h : runTicks j s = .next u) : runTicks (j + k) s = runTicks k u := by
  induction j generalizing s with
  | zero => cases h; simp
  | succ j ih =>
    rw [runTicks_unfold] at h
    split at h
    · rename_i s' he
      rw [show j + 1 + k = (j + k) + 1 by omega, runTicks_succ he]
      exact ih h
    · cases h
    · cases h

theorem runTicks_one (h : step s = .next t) : runTicks 1 s = .next t := by
  rw [runTicks_succ h]; rfl

theorem setInputs_self (s : State) : { s with inputs := s.inputs } = s := rfl

/-- No reset over `k + 1` ticks: none at the present tick, and none over the `k` after it. -/
theorem noReset_succ {ins : List Ports} (h : ∀ p ∈ ins.take (k + 1), p.rst = false) :
    (ins.headD Ports.quiet).rst = false ∧ ∀ p ∈ ins.tail.take k, p.rst = false := by
  cases ins with
  | nil => simp [Ports.quiet]
  | cons a r => simpa using h

theorem noReset_take_le {ins : List Ports} (hjk : j ≤ k) (h : ∀ p ∈ ins.take k, p.rst = false) :
    ∀ p ∈ ins.take j, p.rst = false := fun p hp =>
  h p (by
    have : ins.take j = (ins.take k).take j := by rw [List.take_take, Nat.min_eq_left hjk]
    exact List.mem_of_mem_take (this ▸ hp))

theorem noReset_drop {ins : List Ports} (h : ∀ p ∈ ins.take (j + k), p.rst = false) :
    ∀ p ∈ (ins.drop j).take k, p.rst = false := fun p hp =>
  h p (by
    have : (ins.drop j).take k = (ins.take (j + k)).drop j := by
      rw [List.drop_take]; simp
    exact List.mem_of_mem_drop (this ▸ hp))

/-- One tick without reset leads from `s` to `t`, whatever else the host does. -/
def State.Leads (s t : State) : Prop :=
  ∀ ins : List Ports, (ins.headD Ports.quiet).rst = false →
    step { s with inputs := ins } = .next { t with inputs := ins.tail }

theorem emits_nil (s : State) : s.Emits [] s := fun ins =>
  ⟨fun _ _ hj => absurd hj (by simp), fun _ => by simp [runTicks_zero]⟩

/-- One busy tick shows the level of the state it starts in. -/
theorem emits_tick (hb : s.busy = true) (h : s.Leads t) : s.Emits [s.tx] t := by
  intro ins
  refine ⟨fun j _ hj => ?_, fun hr => ?_⟩
  · obtain rfl : j = 0 := by simpa using hj
    exact ⟨{ s with inputs := ins }, rfl, rfl, hb⟩
  · have := runTicks_one (h ins (noReset_succ (k := 0) (by simpa using hr)).1)
    simpa using this

/-- Stretches of a run compose. -/
theorem Emits.append {w w' : List Bool} (h : s.Emits w u) (h' : u.Emits w' t) : s.Emits (w ++ w') t := by
  intro ins
  obtain ⟨hw, hend⟩ := h ins
  obtain ⟨hw', hend'⟩ := h' (ins.drop w.length)
  constructor
  · intro j hr hj
    by_cases hlt : j < w.length
    · obtain ⟨v, hv⟩ := hw j hr hlt
      exact ⟨v, by rw [List.getElem_append_left hlt]; exact hv⟩
    · obtain ⟨d, rfl⟩ : ∃ d, j = w.length + d := ⟨j - w.length, by omega⟩
      have hd : d < w'.length := by simp at hj; omega
      obtain ⟨v, hv⟩ := hw' d (noReset_drop hr) hd
      refine ⟨v, ?_⟩
      rw [runTicks_add (hend (noReset_take_le (by omega) hr)), List.getElem_append_right (by omega)]
      simpa using hv
  · intro hr
    simp only [List.length_append] at hr ⊢
    rw [runTicks_add (hend (noReset_take_le (by omega) hr)), hend' (noReset_drop hr), List.drop_drop]

/-- A phase from its present timer value to its last tick. -/
theorem emits_countDown (hw : s.params.wf = true) (hb : s.busy = true) (n : Nat) (hn : s.tmr = n) :
    s.Emits (List.replicate n s.tx) { s with tmr := 0 } := by
  induction n generalizing s with
  | zero =>
    have h0 : { s with tmr := 0 } = s := by cases s; simp_all
    rw [h0]
    exact emits_nil s
  | succ n ih =>
    have h1 : s.Emits [s.tx] (countDown s) := emits_tick hb fun ins hr => by
      exact step_of_case (s := { s with inputs := ins }) hw (.countDown hr hb (show s.tmr ≠ 0 by omega))
    have h2 := ih (s := countDown s) hw hb (by simp [hn])
    simpa [List.replicate_succ] using Emits.append h1 h2

/-- A whole phase: its level for `TMR + 1` ticks, then what the tick with `TMR = 0` leads to. -/
theorem emits_phase (hw : s.params.wf = true) (hb : s.busy = true) (hl : { s with tmr := 0 }.Leads t) :
    s.Emits (List.replicate (s.tmr + 1) s.tx) t := by
  have h1 := emits_countDown hw hb s.tmr rfl
  have h2 : { s with tmr := 0 }.Emits [s.tx] t := emits_tick hb hl
  simpa [List.replicate_succ'] using Emits.append h1 h2

/-- A one-tick case gives a lead, where the guards do not look at the ports and the update does not touch them. -/
theorem leads_of_case (hw : s.params.wf = true)
    (h : ∀ ins : List Ports, ∀ p : Ports, p.rst = false →
      TickCase p { s with inputs := ins } { t with inputs := ins }) : s.Leads t := fun ins hr =>
  step_of_case (s := { s with inputs := ins }) hw (h ins.tail _ hr)

/-- The length of a phase of `d` microseconds in ticks. -/
theorem load_add_one (c : Config) (hw : c.wf = true) (d : Nat) (hd : 1 ≤ d) : load c d + 1 = d * c.ticksPerUs := by
  have hT : 1 ≤ c.ticksPerUs := by
    simp [Config.wf] at hw; exact hw.2
  have : 1 ≤ d * c.ticksPerUs := Nat.mul_pos hd hT
  unfold load
  omega

/-- A whole phase of `d` microseconds, from its first tick, is the wave of its segment. -/
theorem emits_segment (hw : s.params.wf = true) (hb : s.busy = true) {l : Bool} {d : Nat} (hd : 1 ≤ d) (htx : s.tx = l)
    (ht : s.tmr = load s.params d) (hl : { s with tmr := 0 }.Leads t) :
    s.Emits (wave s.params.ticksPerUs [(l, d)]) t := by
  have := emits_phase hw hb hl
  rw [ht, load_add_one _ hw _ hd, htx] at this
  simpa [wave] using this

/-- The last step of a run, split off. -/
theorem runTicks_snoc (h : runTicks k s = .next u) : runTicks (k + 1) s = step u := by
  rw [runTicks_add (k := 1) h, runTicks_unfold]
  cases step u <;> rfl

end Sys2Proof.Machine
end

