-- ==== Sys2Proof/Tests/Slice0.lean ====
section
/-!
SUPPORT. Tests: the well-formedness checks on ill-formed terms; words written out from the spec's encodings; single ticks from
the spec's own vectors (95_test_vectors.md, cited by each test); and for each obligation with hypotheses a concrete state and operands
that meet them.
-/

namespace Sys2Proof.Tests

open Sys2Proof.Machine

/-! ## Helpers -/

/-- A check on a step's outcome: it is a next state that passes `f`. -/
def nextPasses (o : Host.Outcome State Fault Refusal) (f : State → Bool) : Bool :=
  match o with
  | .next t => f t
  | .fault _ => false
  | .refused _ => false

/-- The step stops with this fault. -/
def faultIs (o : Host.Outcome State Fault Refusal) (r : Fault) : Bool :=
  match o with
  | .next _ => false
  | .fault x => x == r
  | .refused _ => false

/-- The step is refused for this reason. -/
def refusalIs (o : Host.Outcome State Fault Refusal) (r : Refusal) : Bool :=
  match o with
  | .next _ => false
  | .fault _ => false
  | .refused x => x == r

/-- A request on the ports. -/
def req (cmd : Selector) (rid : RemoteId) (ch : ChannelPort) : Ports :=
  { rst := false, start := true, cmd := cmd, remoteId := rid, channel := ch }

/-- `rst` on the ports, with a request beside it (V-X7). -/
def rstPorts : Ports :=
  { rst := true, start := true, cmd := 0#3, remoteId := 0x0042#16, channel := 1#8 }

/-- The reset state of the default instance with these ports ahead. -/
def idleWith (ins : List Ports) : State :=
  { State.reset with inputs := ins }

/-- A state within the first transmission of `STOP rid=0x0042, ch=1` (program P1), header `0x1F00421`. -/
def stopAt (ph : Phase) (tx : Bool) (tmr : Nat) (bit : BitVec 6) (rep : BitVec 4) : State :=
  { State.reset with
    hdrRid := 0x0042#16, hdrCh := 1#4, op := 2#3, code := 0x55#8, rep := rep, phase := ph, tx := tx, tmr := tmr, bitIdx := bit }

/-- A state within `UP rid=0x0042, ch=1` (program P2). -/
def upAt (ph : Phase) (tx : Bool) (tmr : Nat) (rep : BitVec 4) (pass : Bool) : State :=
  { stopAt ph tx tmr 0#6 rep with op := 0#3, code := 0x11#8, conf := true, pass := pass }

/-- A state within the LEARN steps of `PAIR rid=0x1234, ch=5` (program P3). -/
def pairAt (ph : Phase) (tmr : Nat) (stepIdx : BitVec 3) : State :=
  { stopAt ph false tmr 0#6 1#4 with hdrRid := 0x1234#16, hdrCh := 5#4, op := 4#3, code := 0xCC#8, stepIdx := stepIdx }

/-- The state of V-X1. -/
def faulted : State :=
  { State.reset with err := true, op := 6#3, phase := .fault }

/-! ## Well-formedness -/

theorem test_wf_frame_with_foreign_top_byte_refused :
    Instr.wellFormed Config.default (.frameStop 0x1E#8 0x0042#16 1#4) = false ∧
    Instr.wellFormed Config.default (.frameStop 0x1F#8 0x0042#16 1#4) = true := by decide

theorem test_wf_repeat_count_zero_refused :
    Config.wf { Config.default with repeatCount := 0#4 } = false := by decide

theorem test_wf_zero_ticks_per_us_refused :
    Config.wf { Config.default with ticksPerUs := 0 } = false := by decide

theorem test_wf_bounds_accepted :
    Config.wf { Config.default with repeatCount := 1#4 } = true ∧
    Config.wf { Config.default with repeatCount := 15#4 } = true ∧ Config.wf Config.default = true := by decide

/-- 93_implementation_defined.md U10: an instance with `N = 0` is refused. -/
theorem test_step_refuses_repeat_count_zero :
    refusalIs (step { State.reset with params := { Config.default with repeatCount := 0#4 } }) .notAnInstance = true := by decide

/-! ## Decoding words written out from the spec -/

/-- 30_encoding.md rule R68, `cmd` in bits 2:0, the operand ports 0. -/
theorem test_decode_selectors :
    decode .cmdsel 0b000 = .ok (.up 0#16 0#8) ∧ decode .cmdsel 0b001 = .ok (.down 0#16 0#8) ∧
    decode .cmdsel 0b010 = .ok (.stop 0#16 0#8) ∧ decode .cmdsel 0b011 = .ok (.learn 0#16 0#8) ∧
    decode .cmdsel 0b100 = .ok (.pair 0#16 0#8) ∧ decode .cmdsel 0b101 = .ok (.chdir 0#16 0#8) ∧
    decode .cmdsel 0b110 = .ok .reserved6 ∧ decode .cmdsel 0b111 = .ok .reserved7 := by decide

/-- The operand ports above the selector, every bit of one operand at a time (notes/assumptions/5.md). -/
theorem test_decode_operand_ports :
    decode .cmdsel 0b000000001111111111111111010 = .ok (.stop 0xFFFF#16 0#8) ∧
    decode .cmdsel 0b111111110000000000000000010 = .ok (.stop 0#16 0xFF#8) ∧
    decode .cmdsel 0x8000000 = .error .bitsAboveWidth := by decide

/-- 95_test_vectors.md V-F1, V-F2, V-F3, V-F4. -/
theorem test_decode_frames_with_confirmation :
    decode .frame 0b0001111100000000010000100001000000010001 = .ok (.frameUpPrimary 0x1F#8 0x0042#16 1#4) ∧
    decode .frame 0b0001111100000000010000100001000000011110 = .ok (.frameUpConfirm 0x1F#8 0x0042#16 1#4) ∧
    decode .frame 0b0001111100000000010000100001000000110011 = .ok (.frameDownPrimary 0x1F#8 0x0042#16 1#4) ∧
    decode .frame 0b0001111100000000010000100001000000111100 = .ok (.frameDownConfirm 0x1F#8 0x0042#16 1#4) := by decide

/-- 95_test_vectors.md V-F5, V-F6, V-F9, V-F10. -/
theorem test_decode_frames_more :
    decode .frame 0b0001111100000000010000100001000001010101 = .ok (.frameStop 0x1F#8 0x0042#16 1#4) ∧
    decode .frame 0b0001111100000000010000100001000011001100 = .ok (.frameLearn 0x1F#8 0x0042#16 1#4) ∧
    decode .frame 0b0001111100010010001101000101000011001100 = .ok (.frameLearn 0x1F#8 0x1234#16 5#4) ∧
    decode .frame 0b0001111110101011110011010101000000110011 = .ok (.frameDownPrimary 0x1F#8 0xABCD#16 5#4) := by decide

/-- 90_conflicts.md C1: the source's literal with the UP code is no frame (bits 11:8 are `0xF`); 30_encoding.md rule R62: `0x5A` and
`0xC3` are never sent. -/
theorem test_decode_refuses_by_name :
    decode .frame 0x1F0042FF11 = .error .reservedBitsSet ∧ decode .frame 0x1F0042105A = .error .unknownCode ∧
    decode .frame 0x1F004210C3 = .error .unknownCode ∧ decode .frame 0x10000000011 = .error .bitsAboveWidth ∧
    decode .symbolBit 2 = .error .bitsAboveWidth ∧ decode .symbolSync 1 = .error .bitsAboveWidth := by decide

/-- 30_encoding.md rules R65 to R67: the symbols and the waits. -/
theorem test_decode_symbols_and_waits :
    decode .symbolSync 0 = .ok .sync ∧ decode .symbolBit 0 = .ok .bit0 ∧ decode .symbolBit 1 = .ok .bit1 ∧
    decode .waitGap 0 = .ok .gap ∧ decode .waitInterpress 0 = .ok .waitInterpress ∧
    decode .waitFinal 0 = .ok .waitFinal := by decide

/-- The host's question for the rows that the number of bits tells apart (notes/assumptions/6.md). -/
theorem test_decodeTableWord_rows :
    decodeTableWord 3 5 = some (.chdir 0#16 0#8) ∧ decodeTableWord 8 6 = some .reserved6 ∧
    decodeTableWord 40 0x33 = some (.frameDownPrimary 0#8 0#16 0#4) ∧ decodeTableWord 1 1 = some .bit1 ∧
    decodeTableWord 0 0 = some .sync ∧ decodeTableWord 40 0x00 = none := by decide

/-- Every row's element, placed, runs at the very next step after reset. -/
theorem test_placed_elements_begin :
    nextPasses (step (State.reset.withFetchWord 8 4)) (fun t => t.op == 4#3 && t.code == 0xCC#8 && t.tx) = true ∧
    nextPasses (step (State.reset.withFetchWord 40 0x1F0042101E)) (fun t => t.frame == 0x1F0042101E#40 && t.tx) = true ∧
    nextPasses (step (State.reset.withFetchWord 1 1)) (fun t => t.phase == .bitHi && t.tmr == 619) = true ∧
    nextPasses (step (State.reset.withFetchWord 0 0)) (fun t => t.phase == .syncHi && t.tmr == 4499) = true := by decide

/-! ## The composer (95_test_vectors.md 2.2, 2.3) -/

/-- V-H1, V-H3, V-H4, V-H6, V-H7, V-H8. -/
theorem test_headers :
    buildHeader Config.default 0x0042#16 1#8 = 0x1F00421#28 ∧ buildHeader Config.default 0xFFFF#16 15#8 = 0x1FFFFFF#28 ∧
    buildHeader Config.default 0x1234#16 0x15#8 = 0x1F12345#28 ∧ buildHeader Config.default 0x0042#16 0x10#8 = 0x1F00420#28 ∧
    buildHeader Config.default 0xABCD#16 0x25#8 = 0x1FABCD5#28 ∧
    buildHeader Config.default 0x8001#16 0xFF#8 = 0x1F8001F#28 := by decide

/-- V-F8, V-CF5, V-CF6, V-CF8, V-CF9. -/
theorem test_frames_and_confirmation :
    buildFrame 0x1FFFFFF#28 0x11#8 = 0x1FFFFFF011#40 ∧ confirmCode 0x00#8 = 0x0F#8 ∧ confirmCode 0xFF#8 = 0xF0#8 ∧
    confirmCode 0xA5#8 = 0xAA#8 ∧ confirm 0x1FFFFFF011#40 = 0x1FFFFFF01E#40 ∧ confirm 0#40 = 0x000000000F#40 := by decide

/-! ## Traces (95_test_vectors.md 2.1, 2.4 to 2.6) -/

/-- V-PD5, V-PD6, V-PD7. -/
theorem test_pulse_driver_vectors :
    normTrace (pulse 320 620 ++ pulse 320 620) = [(true, 320), (false, 620), (true, 320), (false, 620)] ∧
    normTrace (pulse 620 320 ++ low 7400) = [(true, 620), (false, 7720)] ∧
    emit 0 620 = none ∧ emit 320 0 = none ∧ delay 0 = none := by decide

/-- V-TF1: high and low time; bits 36 and 37 read back; the last four segments of V-TF2. -/
theorem test_transmit_frame_vectors :
    highTime (transmitFrame 0x1F00421011#40) = 20300 ∧ dur (transmitFrame 0x1F00421011#40) = 43500 ∧
    (transmitFrame 0x1F00421011#40)[8]? = some (true, 620) ∧ (transmitFrame 0x1F00421011#40)[6]? = some (true, 320) ∧
    (transmitFrame 0x1F0042101E#40).drop 78 = [(true, 620), (false, 320), (true, 320), (false, 620)] := by decide

/-- V-SC2 and STOP with `N = 1` (95_test_vectors.md 2.5, 2.6). -/
theorem test_command_lengths :
    dur (sendPass 0x1F00421011#40 1) = 50900 ∧ (sendPass 0x1F00421011#40 1).length = 83 ∧
    dur (commandTrace 2#3 0x1F00421#28 1) = 50900 := by decide

/-! ## Single ticks -/

/-- P1, `S_1`. -/
theorem test_tick_accepts_stop :
    nextPasses (step (idleWith [req 2#3 0x0042#16 1#8])) (fun t => t == stopAt .syncHi true 4499 0#6 6#4) = true := by decide

/-- P3, `S_1`. -/
theorem test_tick_accepts_pair :
    nextPasses (step (idleWith [req 4#3 0x1234#16 5#8])) (fun t =>
      t.phase == .syncHi && t.tmr == 4499 && t.op == 4#3 && t.hdr == 0x1F12345#28 && t.code == 0xCC#8 && !t.conf) = true := by
  decide

/-- P1, `S_4501`, `S_5901`, `S_6221`, `S_6841`. -/
theorem test_tick_walks_through_a_pulse :
    nextPasses (step (stopAt .syncHi true 0 0#6 6#4)) (fun t => t == stopAt .syncLo false 1399 0#6 6#4) = true ∧
    nextPasses (step (stopAt .syncLo false 0 0#6 6#4)) (fun t => t == stopAt .bitHi true 319 39#6 6#4) = true ∧
    nextPasses (step (stopAt .bitHi true 0 39#6 6#4)) (fun t => t == stopAt .bitLo false 619 39#6 6#4) = true ∧
    nextPasses (step (stopAt .bitLo false 0 39#6 6#4)) (fun t => t == stopAt .bitHi true 319 38#6 6#4) = true := by decide

/-- P1, `S_43501`, `S_50901`, `S_305401`. -/
theorem test_tick_gap_repeat_and_completion :
    nextPasses (step (stopAt .bitLo false 0 0#6 6#4)) (fun t => t == stopAt .gap false 7399 0#6 6#4) = true ∧
    nextPasses (step (stopAt .gap false 0 0#6 6#4)) (fun t => t == stopAt .syncHi true 4499 0#6 5#4) = true ∧
    nextPasses (step (stopAt .gap false 0 0#6 1#4)) (fun t => t == { stopAt .idle false 0 0#6 0#4 with done := true }) = true := by
  decide

/-- P2, `S_305401` and the end of the confirmation pass, `S_610801`. -/
theorem test_tick_confirmation_pass :
    nextPasses (step (upAt .gap false 0 1#4 false)) (fun t =>
      t == upAt .syncHi true 4499 6#4 true && t.frame == 0x1F0042101E#40) = true ∧
    nextPasses (step (upAt .gap false 0 1#4 true)) (fun t =>
      t.phase == .idle && t.done && !t.pass && !t.conf && t.rep == 0#4 && t.code == 0x11#8) = true := by decide

/-- P3, `S_305401`, `S_325401`, `S_630801`, `S_730801`. -/
theorem test_tick_gesture_steps :
    nextPasses (step (pairAt .gap 0 0#3)) (fun t => t == pairAt .wait 19999 1#3) = true ∧
    nextPasses (step (pairAt .wait 0 1#3)) (fun t => t.phase == .syncHi && t.tmr == 4499 && t.stepIdx == 2#3 && t.rep == 6#4) = true ∧
    nextPasses (step (pairAt .gap 0 2#3)) (fun t => t == pairAt .wait 99999 3#3) = true ∧
    nextPasses (step (pairAt .wait 0 3#3)) (fun t =>
      t.phase == .syncHi && t.stepIdx == 4#3 && t.code == 0x11#8 && t.conf && t.rep == 6#4) = true := by decide

/-- V-X1, V-X3, V-X4. -/
theorem test_tick_fault_and_recovery :
    nextPasses (step (idleWith [req 6#3 0xFFFF#16 0xFF#8])) (· == faulted) = true ∧
    nextPasses (step { faulted with inputs := [req 0#3 0x0042#16 1#8] }) (· == faulted) = true ∧
    nextPasses (step { faulted with inputs := [rstPorts] }) (· == State.reset) = true := by decide

/-- V-X6, V-X8, V-X9. -/
theorem test_tick_ignored_inputs_and_reset :
    nextPasses (step { stopAt .syncHi true 4000 0#6 6#4 with inputs := [req 7#3 0xFFFF#16 9#8] })
      (· == stopAt .syncHi true 3999 0#6 6#4) = true ∧
    nextPasses (step (idleWith [{ Ports.quiet with cmd := 7#3 }])) (· == State.reset) = true ∧
    nextPasses (step { stopAt .syncHi true 4000 0#6 6#4 with inputs := [rstPorts] }) (· == State.reset) = true := by decide

/-- A state that breaks 10_state.md rule R34 (g): selector 7 in a busy phase has no step table (notes/assumptions/9.md). -/
theorem test_tick_overrun_stops_by_name :
    faultIs (step { pairAt .wait 0 1#3 with op := 7#3 }) .stepTableOverrun = true := by decide

/-- P1 at `T = 2`: `S_1` has `TMR = 8999`. -/
theorem test_tick_scales_with_ticks_per_us :
    nextPasses (step { idleWith [req 2#3 0x0042#16 1#8] with params := { Config.default with ticksPerUs := 2 } })
      (fun t => t.tmr == 8999) = true := by decide

/-! ## Witnesses: concrete states and operands that meet the hypotheses of the obligations -/

/-- The invariant of a state within a STOP. -/
theorem stopAt_inv : (stopAt .syncHi true 4499 0#6 6#4).Inv := by
  constructor <;> decide

/-- The invariant of the last tick of a gap with `REP = 1`. -/
theorem stopAt_gap_inv : (stopAt .gap false 0 0#6 1#4).Inv := by
  constructor <;> decide

/-- The invariant of an idle state with a request ahead. -/
theorem idleWith_inv (ins : List Ports) : (idleWith ins).Inv :=
  ⟨rfl, rfl, Nat.le_refl _, (show (0#6).toNat ≤ 39 by decide), by simp [State.busy, idleWith, State.reset, State.resetOf],
    by simp [idleWith, State.reset, State.resetOf], by simp [State.busy, idleWith, State.reset, State.resetOf],
    by simp [State.busy, idleWith, State.reset, State.resetOf], by simp [idleWith, State.reset, State.resetOf],
    by simp [idleWith, State.reset, State.resetOf], fun _ => ⟨rfl, rfl, rfl, rfl, rfl⟩⟩

/-- EncodeOfDecode: bits of each format, at the top of their range. -/
theorem witness_EncodeOfDecode :
    decode .cmdsel 0x7FFFFFD = .ok (.chdir 0xFFFF#16 0xFF#8) ∧ decode .frame 0xFFFFFFF0CC = .ok (.frameLearn 0xFF#8 0xFFFF#16 15#4) ∧
    decode .symbolSync 0 = .ok .sync ∧ decode .symbolBit 1 = .ok .bit1 ∧ decode .waitFinal 0 = .ok .waitFinal ∧
    Instr.frameLearn 0xFF#8 0xFFFF#16 15#4 ≠ .reserved6 ∧ Instr.frameLearn 0xFF#8 0xFFFF#16 15#4 ≠ .reserved7 := by decide

/-- SendableFramesAreThoseOfR73: a frame for each of the six low bytes with reserved bits 0, and one that can be sent. -/
theorem witness_SendableFramesAreThoseOfR73 :
    (∀ c ∈ [0x11#8, 0x1E#8, 0x33#8, 0x3C#8, 0x55#8, 0xCC#8], ∃ f : Frame, f.extractLsb' 8 4 = 0#4 ∧ f.extractLsb' 0 8 = c) ∧
    (∃ i, decode .frame (0x1F00421011#40).toNat = .ok i ∧ i.wellFormed Config.default = true) :=
  ⟨fun c hc => by
    simp only [List.mem_cons, List.not_mem_nil, or_false] at hc
    rcases hc with rfl | rfl | rfl | rfl | rfl | rfl
    · exact ⟨0x11#40, by decide⟩
    · exact ⟨0x1E#40, by decide⟩
    · exact ⟨0x33#40, by decide⟩
    · exact ⟨0x3C#40, by decide⟩
    · exact ⟨0x55#40, by decide⟩
    · exact ⟨0xCC#40, by decide⟩,
   ⟨.frameUpPrimary 0x1F#8 0x0042#16 1#4, by decide⟩⟩

/-- HeaderIsBuiltFromThePorts, PortBitsReachTheFrame, CommandsPutTheirTraceOnThePin: an idle instance with a request, at both ends of
the selectors that name a command; the default `PREFIX`. -/
theorem witness_accepted_requests :
    Config.default.pfx = 0x1F#8 ∧ (idleWith [req 0#3 0#16 0#8]).params.wf = true ∧
    (idleWith [req 0#3 0#16 0#8]).phase = .idle ∧ (idleWith [req 0#3 0#16 0#8]).Requests 0#3 0#16 0#8 ∧ (0#3).toNat ≤ 5 ∧
    (idleWith [req 5#3 0xFFFF#16 0xFF#8]).Requests 5#3 0xFFFF#16 0xFF#8 ∧ (5#3).toNat ≤ 5 ∧
    (idleWith [req 5#3 0xFFFF#16 0xFF#8]).NoReset 1 := by
  unfold State.Requests State.NoReset; decide

/-- CommandsPutTheirTraceOnThePin, the clause of the selectors 6 and 7; IllegalSelectorStopsTheBlock. -/
theorem witness_illegal_requests :
    (idleWith [req 6#3 0#16 0#8]).params.wf = true ∧ (idleWith [req 6#3 0#16 0#8]).phase = .idle ∧
    (idleWith [req 6#3 0#16 0#8]).Requests 6#3 0#16 0#8 ∧ 5 < (6#3).toNat ∧
    (idleWith [req 7#3 0#16 0#8]).Requests 7#3 0#16 0#8 ∧ 5 < (7#3).toNat ∧
    (idleWith [req 6#3 0#16 0#8]).NoReset (0 + 1) ∧ (idleWith [req 7#3 0#16 0#8, req 0#3 0#16 0#8]).NoReset (1 + 1) := by
  unfold State.Requests State.NoReset; decide

/-- ConfirmInvertsTheLowNibble, TransmitFrameHas41Pulses, TransmissionLengthAndRecovery, FramesAreUnique: bit and segment numbers at
both ends of their ranges. -/
theorem witness_bit_numbers :
    (4 : Nat) ≤ 4 ∧ (3 : Nat) < 4 ∧ (0 : Nat) < 40 ∧ (39 : Nat) < 40 ∧
    (transmitFrame 0#40)[0]? = some (true, 4500) ∧ (transmitFrame 0#40)[81]? = some (false, 620) ∧
    frameWord 0x1F#8 0x0042#16 1#4 0x11#8 = frameWord 0x1F#8 0x0042#16 1#4 0x11#8 := by decide

/-- ConfirmationCodeValues: a busy state whose code has no confirmation pass. -/
theorem witness_ConfirmationCodeValues :
    (stopAt .syncHi true 4499 0#6 6#4).Inv ∧ (stopAt .syncHi true 4499 0#6 6#4).busy = true ∧
    (stopAt .syncHi true 4499 0#6 6#4).code ≠ 0x11#8 ∧ (stopAt .syncHi true 4499 0#6 6#4).code ≠ 0x33#8 :=
  ⟨stopAt_inv, by decide, by decide, by decide⟩

/-- EmitAndDelayTraces, LowTimesBetweenTransmissions: the least duration. -/
theorem witness_durations : (1 : Nat) ≤ 1 ∧ emit 1 1 = some (pulse 1 1) := by decide

/-- PrimitiveCommandsAreAccepted, GesturesAreAccepted, ReservedSelectorsTakeTheFault: an idle state; RequestsOutsideIdleChangeNothing:
a busy one and the faulted one. -/
theorem witness_phases :
    State.reset.phase = .idle ∧ (stopAt .syncHi true 4499 0#6 6#4).phase ≠ .idle ∧ faulted.phase ≠ .idle := by decide

/-- FrameRegisterHoldsTheFrameSent: a well-formed frame element with its next state. -/
theorem witness_FrameRegisterHoldsTheFrameSent :
    (encode (.frameUpConfirm 0x1F#8 0x0042#16 1#4)).format = .frame ∧
    (Instr.frameUpConfirm 0x1F#8 0x0042#16 1#4).wellFormed State.reset.params = true ∧
    ∃ t, exec (.frameUpConfirm 0x1F#8 0x0042#16 1#4) State.reset = .next t :=
  ⟨rfl, by decide, _, rfl⟩

/-- StepRunsTheDecodedElement: a state for each clause. -/
theorem witness_StepRunsTheDecodedElement :
    ((idleWith [req 6#3 0#16 0#8]).port.rst = false ∧ (idleWith [req 6#3 0#16 0#8]).port.start = true) ∧
    ((stopAt .syncLo false 0 0#6 6#4).params.wf = true ∧ (stopAt .syncLo false 0 0#6 6#4).port.rst = false) ∧
    (stopAt .bitLo false 0 39#6 6#4).bitIdx ≠ 0#6 ∧ (stopAt .bitLo false 0 1#6 6#4).bitIdx ≠ 0#6 ∧
    (stopAt .bitLo false 0 0#6 6#4).bitIdx = 0#6 ∧
    ((stopAt .gap false 0 0#6 2#4).rep ≠ 1#4 ∧ (stopAt .gap false 0 0#6 2#4).code ∈ [0x11#8, 0x33#8, 0x55#8, 0xCC#8] ∧
      decode .frame (stopAt .gap false 0 0#6 2#4).frame.toNat = .ok (.frameStop 0x1F#8 0x0042#16 1#4)) ∧
    ((upAt .gap false 0 1#4 false).conf = true ∧ (upAt .gap false 0 1#4 false).code ∈ [0x11#8, 0x33#8, 0x55#8, 0xCC#8] ∧
      decode .frame (confirm (upAt .gap false 0 1#4 false).frame).toNat = .ok (.frameUpConfirm 0x1F#8 0x0042#16 1#4)) ∧
    ((pairAt .wait 0 3#3).phase = .wait ∧ (prog (pairAt .wait 0 3#3).op)[(pairAt .wait 0 3#3).stepIdx.toNat + 1]? = some (.send 0x11#8)) ∧
    ((pairAt .gap 0 0#3).rep = 1#4 ∧ (pairAt .gap 0 0#3).conf = false ∧
      (prog (pairAt .gap 0 0#3).op)[(pairAt .gap 0 0#3).stepIdx.toNat + 1]? = some (.wait .interpress)) ∧
    (prog (pairAt .gap 0 2#3).op)[(pairAt .gap 0 2#3).stepIdx.toNat + 1]? = some (.wait .final) := by decide

/-- PlacedElementsRun, StepIsRuleR166, ResetMeetsTheInvariant: instances at the bounds of the parameters. -/
theorem witness_parameters :
    Config.wf { pfx := 0x00#8, repeatCount := 1#4, ticksPerUs := 1 } = true ∧
    Config.wf { pfx := 0xFF#8, repeatCount := 15#4, ticksPerUs := 1000 } = true ∧ State.reset.params.wf = true := by decide

/-- EventsAreResolvedInOrder, StatusFlagsRules: one state for each clause. -/
theorem witness_EventsAreResolvedInOrder :
    (idleWith [rstPorts]).port.rst = true ∧
    ({ faulted with inputs := [req 0#3 0#16 0#8] } : State).port.rst = false ∧
    ((idleWith [req 6#3 0#16 0#8]).port.start = true ∧ 5 < (idleWith [req 6#3 0#16 0#8]).port.cmd.toNat) ∧
    ((idleWith [req 5#3 0#16 0#8]).port.start = true ∧ (idleWith [req 5#3 0#16 0#8]).port.cmd.toNat ≤ 5) ∧
    (idleWith []).port.start = false ∧
    ((stopAt .syncHi true 1 0#6 6#4).busy = true ∧ (stopAt .syncHi true 1 0#6 6#4).tmr ≠ 0) ∧
    Ports.quiet.rst = false := by decide

/-- EventsAreResolvedInOrder, the clause of a phase's end; StepKeepsTheInvariant, ReachableStatesObeyR34, ReachableStatesNeverStop,
StepKeepsTheParameters, StatusFlagsRules: a state with the invariant that steps. -/
theorem witness_StepKeepsTheInvariant :
    (stopAt .gap false 0 0#6 1#4).Inv ∧ (stopAt .gap false 0 0#6 1#4).tmr = 0 ∧ (stopAt .gap false 0 0#6 1#4).busy = true ∧
    (idleWith [req 0#3 0#16 0#8]).Inv ∧ (∃ t, step (stopAt .gap false 0 0#6 1#4) = .next t) ∧
    ∃ t, step (idleWith [req 0#3 0#16 0#8]) = .next t :=
  ⟨stopAt_gap_inv, rfl, rfl, idleWith_inv _, ⟨_, rfl⟩, ⟨_, rfl⟩⟩

/-- ResetGivesTheResetState: a reset held for two ticks, and an idle tick. -/
theorem witness_ResetGivesTheResetState :
    (idleWith [rstPorts, rstPorts]).params.wf = true ∧ 1 < (idleWith [rstPorts, rstPorts]).inputs.length ∧
    (∀ p ∈ (idleWith [rstPorts, rstPorts]).inputs.take (1 + 1), p.rst = true) ∧
    Ports.quiet.rst = false ∧ Ports.quiet.start = false := by decide

/-- HeaderChangesOnlyAtAcceptance: a busy state at a tick without reset (no acceptance), with its next state. -/
theorem witness_HeaderChangesOnlyAtAcceptance :
    (stopAt .gap false 0 0#6 1#4).port.rst = false ∧ ¬ ((stopAt .gap false 0 0#6 1#4).phase = .idle) ∧
    ∃ t, step (stopAt .gap false 0 0#6 1#4) = .next t :=
  ⟨rfl, by decide, ⟨_, rfl⟩⟩

/-- PortsAreReadOnlyAtAcceptance: two different port values without reset at a busy tick, and two without `start`. -/
theorem witness_PortsAreReadOnlyAtAcceptance :
    (req 7#3 0xFFFF#16 9#8).rst = false ∧ Ports.quiet.rst = false ∧ (stopAt .syncHi true 0 0#6 6#4).phase ≠ .idle ∧
    ({ Ports.quiet with cmd := 7#3 } : Ports).start = false ∧ Ports.quiet.start = false ∧
    (stopAt .syncHi true 0 0#6 6#4).busy = true ∧ (stopAt .syncHi true 0 0#6 6#4).port.rst = false := by decide

/-- PhasesCountDown: at both ends of `k`. -/
theorem witness_PhasesCountDown :
    (stopAt .syncHi true 4499 0#6 6#4).params.wf = true ∧ (stopAt .syncHi true 4499 0#6 6#4).busy = true ∧
    0 ≤ (stopAt .syncHi true 4499 0#6 6#4).tmr ∧ 4499 ≤ (stopAt .syncHi true 4499 0#6 6#4).tmr ∧
    (stopAt .syncHi true 4499 0#6 6#4).NoReset 4499 := by
  unfold State.NoReset; decide

/-- ElementsPutTheirTraceOnThePin: a state for the bit symbols of each value, and one with the pin low for the waits. -/
theorem witness_ElementsPutTheirTraceOnThePin :
    (stopAt .bitLo false 0 39#6 6#4).frameBit = false ∧ (stopAt .bitLo false 0 0#6 6#4).frameBit = true ∧
    (stopAt .bitLo false 0 0#6 6#4).tx = false ∧ State.reset.params.wf = true ∧ (stopAt .bitLo false 0 0#6 6#4).NoReset 5 := by
  unfold State.NoReset; decide

/-- TransmissionPutsTheFrameOnThePin: the first tick of a sync pulse. -/
theorem witness_TransmissionPutsTheFrameOnThePin :
    (stopAt .syncHi true 4499 0#6 6#4).params.wf = true ∧ (stopAt .syncHi true 4499 0#6 6#4).phase = .syncHi ∧
    (stopAt .syncHi true 4499 0#6 6#4).tx = true ∧
    (stopAt .syncHi true 4499 0#6 6#4).tmr = 4500 * (stopAt .syncHi true 4499 0#6 6#4).params.ticksPerUs - 1 := by decide

/-- ResetCutsACommandShort: a command accepted, then a reset at the next tick. -/
theorem witness_ResetCutsACommandShort :
    (idleWith [req 1#3 0x0042#16 1#8, rstPorts]).Requests 1#3 0x0042#16 1#8 ∧ (1 : Nat) ≤ 1 ∧
    (idleWith [req 1#3 0x0042#16 1#8, rstPorts]).inputs[1]? = some rstPorts ∧ rstPorts.rst = true ∧
    (idleWith [req 1#3 0x0042#16 1#8, rstPorts]).NoReset 1 ∧
    1 ≤ (wave 1 (commandTrace 1#3 0x1F00421#28 6)).length := by
  refine ⟨rfl, Nat.le_refl _, rfl, rfl, by unfold State.NoReset; decide, ?_⟩
  obtain ⟨r, hr⟩ : ∃ r, commandTrace 1#3 0x1F00421#28 6 = (true, 4500) :: r := ⟨_, rfl⟩
  rw [wave_length, hr, dur]
  omega

/-- RepeatedCommandsGiveTheSamePinTrace: two different idle states, channel ports that differ above bit 3 only. -/
theorem witness_RepeatedCommandsGiveTheSamePinTrace :
    (idleWith [req 0#3 0x0042#16 0x01#8]).Requests 0#3 0x0042#16 0x01#8 ∧
    ({ idleWith [req 0#3 0x0042#16 0xF1#8] with done := true, op := 2#3, code := 0x55#8 } : State).Requests 0#3 0x0042#16 0xF1#8 ∧
    (0x01#8).extractLsb' 0 4 = (0xF1#8).extractLsb' 0 4 ∧
    0 ≤ dur (commandTrace 0#3 (buildHeader Config.default 0x0042#16 0x01#8) 6) * 1 ∧
    (idleWith [req 0#3 0x0042#16 0x01#8]).NoReset (0 + 1) := by
  refine ⟨rfl, rfl, by decide, Nat.zero_le _, by unfold State.NoReset; decide⟩

end Sys2Proof.Tests
end

section
/-!
PROOF. The parameters and the port list across a step (00_scope.md rule R5, notes/assumptions/1.md, 2.md). No operation of the
sequencer writes either, reset included; the one change of the port list in a step is `State.consume`, before the tick's case is
chosen.
-/

namespace Sys2Proof.Machine

variable {p : Ports} {s t : State}

@[simp] theorem applyReset_params : (applyReset s).params = s.params := rfl
@[simp] theorem applyReset_inputs : (applyReset s).inputs = s.inputs := rfl

/-- Reset and every other case of a tick only write registers. -/
theorem TickCase.params_eq (h : TickCase p s t) : t.params = s.params := by
  cases h <;> simp

theorem TickCase.inputs_eq (h : TickCase p s t) : t.inputs = s.inputs := by
  cases h <;> simp

/-- Settles O41: a step is one case of a tick on the state with its ports moved on, and no case writes the parameters or the
port list. -/
theorem stepKeepsTheParameters : Obligations.StepKeepsTheParameters := by
  intro s t h
  obtain ⟨-, hcase⟩ := step_cases h
  exact ⟨hcase.params_eq, hcase.inputs_eq⟩

end Sys2Proof.Machine
end

section
/-!
PROOF. The step tables, read as facts about a position `(OP, STEP)` (44_gestures.md rule R125): finite facts over the eight
selectors, which the invariant's step lemma and rule R34 (g) both rest on.
-/

namespace Sys2Proof.Machine

variable {op : Selector}

/-- Only the selectors that name a command have steps. -/
theorem legal_of_prog_getElem? {i : Nat} {x : CmdStep} (h : (prog op)[i]? = some x) : op.toNat ≤ 5 := by
  have hlegal : ∀ op : Selector, prog op ≠ [] → op.toNat ≤ 5 := by decide
  exact hlegal op fun hnil => by simp [hnil] at h

/-- Every SEND step sends one of the four primary codes (10_state.md rule R14). -/
theorem primary_of_prog_send {i : Nat} {c : Code} (h : (prog op)[i]? = some (.send c)) :
    c ∈ [codeUp, codeDown, codeStop, codeLearn] := by
  have hsteps : ∀ op : Selector, ∀ x ∈ prog op, x ∈ ([codeUp, codeDown, codeStop, codeLearn].map CmdStep.send ++
      [.wait .interpress, .wait .final]) := by decide
  simpa using hsteps op _ (List.mem_of_getElem? h)

/-- `STEP` does not overflow on the way to a step of the table. -/
theorem toNat_succ_of_prog {i : BitVec 3} {x : CmdStep} (h : (prog op)[i.toNat + 1]? = some x) :
    (i + 1#3).toNat = i.toNat + 1 := by
  have hlength : ∀ op : Selector, (prog op).length ≤ 5 := by decide
  have hlt := (List.getElem?_eq_some_iff.1 h).1
  have := hlength op
  bv_omega

/-- A WAIT step comes after a SEND of the code of LEARN, and its length is fixed by its index. -/
theorem prog_before_wait {i : BitVec 3} {w : WaitKind} (h : (prog op)[i.toNat + 1]? = some (.wait w)) :
    (prog op)[i.toNat]? = some (.send codeLearn) ∧ waitUs w = if i + 1#3 = 1#3 then interpressUs else finalUs := by
  have hinter : ∀ (op : Selector) (i : BitVec 3), (prog op)[i.toNat + 1]? = some (.wait .interpress) →
      (prog op)[i.toNat]? = some (.send codeLearn) ∧ i + 1#3 = 1#3 := by decide
  have hfinal : ∀ (op : Selector) (i : BitVec 3), (prog op)[i.toNat + 1]? = some (.wait .final) →
      (prog op)[i.toNat]? = some (.send codeLearn) ∧ i + 1#3 ≠ 1#3 := by decide
  cases w with
  | interpress =>
    obtain ⟨hsend, hi⟩ := hinter op i h
    exact ⟨hsend, (if_pos hi).symm⟩
  | final =>
    obtain ⟨hsend, hi⟩ := hfinal op i h
    exact ⟨hsend, (if_neg hi).symm⟩

end Sys2Proof.Machine
end

section
/-!
PROOF. The invariant of the reachable states is kept by every step (10_state.md rule R34, 70_reset_and_hazards.md rule R166).

The invariant is read in three parts, by what the block is doing: at rest (`IDLE`, `FAULT`), in a SEND step (five phases, over which
only `PHASE`, `TMR`, `TX` and `BITIDX` move) and in a WAIT step. One introduction lemma per part; each case of a tick then ends in
one of the three.
-/

namespace Sys2Proof.Machine

variable {p : Ports} {s t : State}

/-! ## At rest -/

/-- The invariant of a block that is carrying out no command. -/
theorem inv_of_rest (hb : s.busy = false) (hw : s.params.wf = true) (htx : s.tx = false) (htmr : s.tmr = 0)
    (herr : s.err = true ↔ s.phase = .fault) (hdone : s.done = true → s.phase = .idle)
    (hc : s.stepIdx = 0#3 ∧ s.pass = false ∧ s.conf = false ∧ s.rep = 0#4 ∧ s.bitIdx = 0#6) : s.Inv where
  params_wf := hw
  tx_high := by
    have hp : s.phase = .idle ∨ s.phase = .fault := by simpa [State.busy, or_iff_not_imp_left] using hb
    rcases hp with hp | hp <;> rw [htx, hp] <;> rfl
  tmr_le := htmr ▸ Nat.zero_le _
  bitIdx_le := by simp [hc]
  rep_range h := by simp [hb] at h
  pass_conf h := by simp [hc] at h
  step_agrees h := by simp [hb] at h
  conf_code h := by simp [hb] at h
  err_fault := herr
  done_idle := hdone
  idle_canonical _ := hc

theorem inv_resetOf (c : Config) (ins : List Ports) (hw : c.wf = true) : (State.resetOf c ins).Inv :=
  inv_of_rest rfl hw rfl rfl (by simp [State.resetOf]) (fun _ => rfl) ⟨rfl, rfl, rfl, rfl, rfl⟩

/-- Settles O43: the reset state is at rest with every counter and flag 0. -/
theorem resetMeetsTheInvariant : Obligations.ResetMeetsTheInvariant :=
  ⟨inv_resetOf, rfl⟩

/-- What the invariant says of `TMR` and `TX` outside a command. -/
theorem State.Inv.rest (h : s.Inv) (hp : s.phase = .idle ∨ s.phase = .fault) : s.tmr = 0 ∧ s.tx = false := by
  have htmr := h.tmr_le
  have htx := h.tx_high
  rcases hp with hp | hp <;> simp_all [State.tmrBound, Phase.high]

theorem State.Inv.not_done (h : s.Inv) (hb : s.busy = true) : s.done = false := by
  have := h.done_idle
  rw [busy_iff] at hb
  simp_all

theorem State.Inv.not_err (h : s.Inv) (hp : s.phase ≠ .fault) : s.err = false := by
  have := h.err_fault
  simp_all

/-! ## In a SEND step -/

/-- The phases of a SEND step. -/
def Phase.sends : Phase → Bool
  | .idle | .fault | .wait => false
  | .syncHi | .syncLo | .bitHi | .bitLo | .gap => true

theorem busy_of_sends (hp : s.phase.sends = true) : s.busy = true := by
  rw [busy_iff]
  constructor <;> intro h <;> simp [h, Phase.sends] at hp

/-- What the invariant says in a SEND step of the registers other than `PHASE`, `TMR` and `TX`: the fields of `State.Inv` of the same
names without their guards, `send` for its `step_agrees`. -/
structure State.InSend (s : State) : Prop where
  params_wf : s.params.wf = true
  bitIdx_le : s.bitIdx.toNat ≤ 39
  rep_range : 1 ≤ s.rep.toNat ∧ s.rep.toNat ≤ s.params.repeatCount.toNat
  pass_conf : s.pass = true → s.conf = true
  send : (prog s.op)[s.stepIdx.toNat]? = some (.send s.code)
  conf_code : s.conf = needsConf s.code
  err : s.err = false
  done : s.done = false

/-- In the phases of a SEND step, `stepAgrees` is that the table has the SEND of `CODE` at `STEP`. -/
theorem stepAgrees_send (hp : s.phase.sends = true) :
    s.stepAgrees = true ↔ (prog s.op)[s.stepIdx.toNat]? = some (.send s.code) := by
  have hw : s.phase ≠ .wait := fun h => by simp [h, Phase.sends] at hp
  unfold State.stepAgrees
  rcases (prog s.op)[s.stepIdx.toNat]? with _ | c | w
  · simp [hw]
  · simpa [hw] using eq_comm
  · simp [hw]

theorem State.Inv.inSend (h : s.Inv) (hp : s.phase.sends = true) : s.InSend :=
  have hb := busy_of_sends hp
  { params_wf := h.params_wf
    bitIdx_le := h.bitIdx_le
    rep_range := h.rep_range hb
    pass_conf := h.pass_conf
    send := (stepAgrees_send hp).1 (h.step_agrees hb)
    conf_code := h.conf_code hb
    err := h.not_err (busy_iff.1 hb).2
    done := h.not_done hb }

theorem State.InSend.pinWrite (h : s.InSend) (l : Bool) : (pinWrite l s).InSend := { h with }

/-- A phase of a SEND step begins, with the pin at its level. -/
theorem State.InSend.inv_enterPhase (h : s.InSend) {ph : Phase} {d : Nat} (hp : ph.sends = true) (htx : s.tx = ph.high)
    (hd : load s.params d ≤ (enterPhase ph d s).tmrBound) : (enterPhase ph d s).Inv :=
  have hb : (enterPhase ph d s).busy = true := busy_of_sends hp
  { params_wf := h.params_wf
    tx_high := htx
    tmr_le := hd
    bitIdx_le := h.bitIdx_le
    rep_range := fun _ => h.rep_range
    pass_conf := h.pass_conf
    step_agrees := fun _ => (stepAgrees_send hp).2 h.send
    conf_code := fun _ => h.conf_code
    err_fault := by simpa [h.err] using (busy_iff.1 hb).2
    done_idle := by simp [h.done]
    idle_canonical := by simp [hb] }

theorem State.InSend.inv_startFrame (h : s.InSend) : (startFrame s).Inv :=
  (h.pinWrite true).inv_enterPhase rfl rfl le_rfl

theorem State.InSend.inv_startBit (h : s.InSend) {b : Bool} (hb : b = s.frameBit) : (startBit b s).Inv :=
  (h.pinWrite true).inv_enterPhase rfl rfl (hb ▸ le_rfl)

/-- A SEND step begins. -/
theorem inSend_loadSend {c : Code} (hw : s.params.wf = true) (hbit : s.bitIdx.toNat ≤ 39) (herr : s.err = false)
    (hdone : s.done = false) (hsend : (prog s.op)[s.stepIdx.toNat]? = some (.send c)) : (loadSend c s).InSend where
  params_wf := hw
  bitIdx_le := hbit
  rep_range := by
    have hN : s.params.repeatCount ≠ 0#4 := by
      simp only [Config.wf, Bool.and_eq_true, bne_iff_ne] at hw
      exact hw.1
    simp only [loadSend_rep, loadSend_params]
    bv_omega
  pass_conf := by simp
  send := hsend
  conf_code := rfl
  err := herr
  done := hdone

/-! ## In a WAIT step -/

/-- In a WAIT step, `stepAgrees` is that the table has a WAIT at `STEP`, `REP` is 1 and `CODE` is that of LEARN. -/
theorem stepAgrees_wait (hp : s.phase = .wait) :
    s.stepAgrees = true ↔
      (∃ w, (prog s.op)[s.stepIdx.toNat]? = some (.wait w)) ∧ s.rep = 1#4 ∧ s.code = codeLearn := by
  unfold State.stepAgrees
  rcases (prog s.op)[s.stepIdx.toNat]? with _ | c | w <;> simp [hp]

/-! ## The cases of a tick -/

theorem State.Inv.consume (h : s.Inv) : s.consume.Inv := { h with }

theorem State.Inv.countDown (h : s.Inv) : (countDown s).Inv :=
  { h with tmr_le := (Nat.sub_le _ _).trans h.tmr_le }

/-- The phases at whose end a step of a command can end. -/
theorem busy_of_stepEnd {P : Prop} (hp : s.phase = .wait ∨ (s.phase = .gap ∧ P)) : s.busy = true := by
  rw [busy_iff]
  rcases hp with hp | ⟨hp, -⟩ <;> simp [hp]

/-- What holds at the tick that ends a step of a command: the pin is low and no status flag is set. -/
theorem State.Inv.stepEnd (h : s.Inv) {P : Prop} (hp : s.phase = .wait ∨ (s.phase = .gap ∧ P)) :
    s.tx = false ∧ s.err = false ∧ s.done = false := by
  have hb := busy_of_stepEnd hp
  refine ⟨?_, h.not_err (busy_iff.1 hb).2, h.not_done hb⟩
  rw [h.tx_high]
  rcases hp with hp | ⟨hp, -⟩ <;> simp [hp, Phase.high]

/-- A WAIT step begins: it comes after the last transmission of a SEND of the code of LEARN. -/
theorem State.Inv.nextWait (h : s.Inv) {w : WaitKind}
    (hp : s.phase = .wait ∨ (s.phase = .gap ∧ s.rep = 1#4 ∧ ¬ (s.pass = false ∧ s.conf = true)))
    (hn : (prog s.op)[s.stepIdx.toNat + 1]? = some (.wait w)) :
    (startDelay .wait (waitUs w) { s with stepIdx := s.stepIdx + 1#3 }).Inv := by
  obtain ⟨hsend, hus⟩ := prog_before_wait hn
  have hb := busy_of_stepEnd hp
  obtain ⟨htx, herr, hdone⟩ := h.stepEnd hp
  rcases hp with hp | ⟨hp, hr, -⟩
  · obtain ⟨⟨w', hwait⟩, -⟩ := (stepAgrees_wait hp).1 (h.step_agrees hb)
    simp [hwait] at hsend
  have hcode : s.code = codeLearn := by
    have := (h.inSend (hp ▸ rfl)).send
    simpa [hsend, eq_comm] using this
  exact
    { h with
      tx_high := htx
      tmr_le := (congrArg (load s.params) hus).le
      rep_range := fun _ => h.rep_range hb
      step_agrees := fun _ => (stepAgrees_wait rfl).2
        ⟨⟨w, by simpa [toNat_succ_of_prog hn] using hn⟩, hr, hcode⟩
      conf_code := fun _ => h.conf_code hb
      err_fault := by simp [herr]
      done_idle := by simp [hdone]
      idle_canonical := by simp [State.busy] }

/-- Every case of a tick keeps the invariant. -/
theorem TickCase.inv (hc : TickCase p s t) (h : s.Inv) : t.Inv := by
  cases hc with
  | reset => exact inv_resetOf _ _ h.params_wf
  | faultHold | idleHold => exact h
  | illegal _ hp =>
    obtain ⟨htmr, htx⟩ := h.rest (.inl hp)
    exact inv_of_rest rfl h.params_wf htx htmr (by simp) (by simp) (h.idle_canonical (by simp [State.busy, hp]))
  | accept _ hp _ _ c hf =>
    exact (inSend_loadSend (s := latchRequest _ _ _ s) h.params_wf h.bitIdx_le (h.not_err (by simp [hp])) rfl hf).inv_startFrame
  | countDown => exact h.countDown
  | syncLow _ hp => exact ((h.inSend (hp ▸ rfl)).pinWrite false).inv_enterPhase rfl rfl le_rfl
  | firstBit _ hp =>
    have hs : State.InSend { s with bitIdx := 39#6 } := { h.inSend (hp ▸ rfl) with bitIdx_le := le_rfl }
    exact hs.inv_startBit (frameBitAt_of_lt (by decide)).symm
  | bitLow _ hp => exact ((h.inSend (hp ▸ rfl)).pinWrite false).inv_enterPhase rfl rfl le_rfl
  | nextBit _ hp _ hb =>
    have hi : (s.bitIdx - 1#6).toNat = s.bitIdx.toNat - 1 := by
      have : s.bitIdx.toNat ≠ 0 := fun h => hb (BitVec.eq_of_toNat_eq h)
      bv_omega
    have hs : State.InSend { s with bitIdx := s.bitIdx - 1#6 } :=
      { h.inSend (hp ▸ rfl) with bitIdx_le := hi.trans_le ((Nat.sub_le _ _).trans h.bitIdx_le) }
    exact hs.inv_startBit (congrArg (frameBitAt s.frame) hi.symm)
  | gap _ hp =>
    have htx : s.tx = false := by rw [h.tx_high, hp]; rfl
    exact (h.inSend (hp ▸ rfl)).inv_enterPhase rfl htx le_rfl
  | again _ hp _ hr =>
    have hs := h.inSend (hp ▸ rfl)
    obtain ⟨hpos, hle⟩ := hs.rep_range
    have hrep : 1 ≤ (decRep s.rep).toNat ∧ (decRep s.rep).toNat ≤ s.params.repeatCount.toNat := by
      rw [decRep_of_ne (by bv_omega)]
      bv_omega
    exact State.InSend.inv_startFrame { hs with rep_range := hrep }
  | confirm _ hp _ _ hc =>
    have hs := h.inSend (hp ▸ rfl)
    have hN : 1 ≤ s.params.repeatCount.toNat := hs.rep_range.1.trans hs.rep_range.2
    exact State.InSend.inv_startFrame { hs with rep_range := ⟨hN, le_rfl⟩, pass_conf := fun _ => hc.2 }
  | complete _ ht hp =>
    obtain ⟨htx, herr, -⟩ := h.stepEnd hp
    exact inv_of_rest rfl h.params_wf htx ht (by simp [herr]) (fun _ => rfl) ⟨rfl, rfl, rfl, rfl, rfl⟩
  | nextSend _ _ hp c hn =>
    obtain ⟨-, herr, hdone⟩ := h.stepEnd hp
    exact (inSend_loadSend (s := { s with stepIdx := s.stepIdx + 1#3 }) h.params_wf h.bitIdx_le herr hdone
      (by simpa [toNat_succ_of_prog hn] using hn)).inv_startFrame
  | nextWait _ _ hp w hn => exact h.nextWait hp hn

/-- Settles O44: moving the ports on changes no register, and every case of a tick keeps the invariant. -/
theorem stepKeepsTheInvariant : Obligations.StepKeepsTheInvariant := by
  intro s t h hstep
  obtain ⟨-, hcase⟩ := step_cases hstep
  exact hcase.inv h.consume

end Sys2Proof.Machine
end

section
/-!
PROOF. The rules of the status flags (10_state.md rules R26, R27) and of `HDR` and `OP` (rules R13, R17). All of them ask the same
of a tick: whether it is a reset, an acceptance tick, or one at which a command is carried on; `TickKind` is the list of cases of a
tick read that way.
-/

namespace Sys2Proof.Machine

variable {p : Ports} {s t : State}

/-- The cases of a tick, with those of a command in progress taken together: all of them keep `HDR`, `OP` and `ERR`, and of them only
completion sets `DONE`. -/
inductive TickKind (p : Ports) (s : State) : State → Prop where
  /-- `rst = 1`. -/
  | reset (h : p.rst = true) : TickKind p s (applyReset s)
  /-- No command is in progress and none is presented. -/
  | hold (h : p.rst = false) (hb : s.busy = false) (hs : ¬ (s.phase = .idle ∧ p.start = true)) : TickKind p s s
  /-- An illegal selector at an acceptance tick. -/
  | illegal (h : p.rst = false) (hp : s.phase = .idle) (hs : p.start = true) (hc : 5 < p.cmd.toNat) :
      TickKind p s (raiseIllegalCommand p.cmd s)
  /-- Acceptance. -/
  | accept (h : p.rst = false) (hp : s.phase = .idle) (hs : p.start = true) (hc : p.cmd.toNat ≤ 5) (c : Code) :
      TickKind p s (startFrame (loadSend c (latchRequest p.cmd p.remoteId p.channel s)))
  /-- A command is carried on. -/
  | busy {t : State} (h : p.rst = false) (hb : s.busy = true) (hhdr : t.hdr = s.hdr) (hop : t.op = s.op) (herr : t.err = s.err)
      (hdone : t.done = true ↔ t.phase = .idle ∨ s.done = true) : TickKind p s t

theorem TickCase.kind (hc : TickCase p s t) : TickKind p s t := by
  cases hc with
  | reset h => exact .reset h
  | faultHold h hp => exact .hold h (by simp [State.busy, hp]) (by simp [hp])
  | idleHold h hp hs => exact .hold h (by simp [State.busy, hp]) (by simp [hs])
  | illegal h hp hs hc => exact .illegal h hp hs hc
  | accept h hp hs hc c => exact .accept h hp hs hc c
  | countDown h hb => exact .busy h hb rfl rfl rfl (by simp [(busy_iff.1 hb).1])
  | syncLow h hp | firstBit h hp | bitLow h hp | nextBit h hp | gap h hp | again h hp | confirm h hp =>
    exact .busy h (busy_of_sends (hp ▸ rfl)) rfl rfl rfl (by simp)
  | complete h _ hp | nextSend h _ hp | nextWait h _ hp => exact .busy h (busy_of_stepEnd hp) rfl rfl rfl (by simp)

/-- 10_state.md rule R27. -/
theorem TickKind.err_iff (hk : TickKind p s t) : t.err = true ↔ p.rst = false ∧
    (s.err = true ∨ (s.phase = .idle ∧ p.start = true ∧ 5 < p.cmd.toNat)) := by
  cases hk with
  | reset h => simp [applyReset, State.resetOf, h]
  | hold h _ hs =>
    have : ¬ (s.phase = .idle ∧ p.start = true ∧ 5 < p.cmd.toNat) := fun hc => hs ⟨hc.1, hc.2.1⟩
    simp [h, this]
  | illegal h hp hs hc => simp [h, hp, hs, hc]
  | accept h hp hs hc => simp [h, Nat.not_lt.2 hc]
  | busy h hb _ _ herr => simp [h, herr, (busy_iff.1 hb).1]

/-- 10_state.md rule R26. -/
theorem TickKind.done_iff (hk : TickKind p s t) : t.done = true ↔ p.rst = false ∧
    ((s.busy = true ∧ t.phase = .idle) ∨ (s.done = true ∧ ¬ (s.phase = .idle ∧ p.start = true))) := by
  cases hk with
  | reset h => simp [applyReset, State.resetOf, h]
  | hold h hb hs => simp [h, hb, hs]
  | illegal h hp hs hc => simp [hp, hs]
  | accept h hp hs hc => simp [hp, hs]
  | busy h hb _ _ _ hdone => simp [h, hb, hdone, (busy_iff.1 hb).1]

/-- No guard of a tick reads `DONE` or `ERR`, and no other register is written from them. -/
theorem TickCase.with_flags (hc : TickCase p s t) (d e : Bool) :
    ∃ d' e' : Bool, TickCase p { s with done := d, err := e } { t with done := d', err := e' } := by
  cases hc with
  | reset h => exact ⟨_, _, .reset h⟩
  | faultHold h hp => exact ⟨_, _, .faultHold h hp⟩
  | idleHold h hp hs => exact ⟨_, _, .idleHold h hp hs⟩
  | illegal h hp hs hc => exact ⟨_, _, .illegal h hp hs hc⟩
  | accept h hp hs hc c hf => exact ⟨_, _, .accept (s := { s with done := d, err := e }) h hp hs hc c hf⟩
  | countDown h hb ht => exact ⟨_, _, .countDown h hb ht⟩
  | syncLow h hp ht => exact ⟨_, _, .syncLow h hp ht⟩
  | firstBit h hp ht => exact ⟨_, _, .firstBit h hp ht⟩
  | bitLow h hp ht => exact ⟨_, _, .bitLow h hp ht⟩
  | nextBit h hp ht hb => exact ⟨_, _, .nextBit h hp ht hb⟩
  | gap h hp ht hb => exact ⟨_, _, .gap h hp ht hb⟩
  | again h hp ht hr => exact ⟨_, _, .again h hp ht hr⟩
  | confirm h hp ht hr hc => exact ⟨_, _, .confirm h hp ht hr hc⟩
  | complete h ht hp hl => exact ⟨_, _, .complete h ht hp hl⟩
  | nextSend h ht hp c hn => exact ⟨_, _, .nextSend (s := { s with done := d, err := e }) h ht hp c hn⟩
  | nextWait h ht hp w hn => exact ⟨_, _, .nextWait (s := { s with done := d, err := e }) h ht hp w hn⟩

/-- Settles O39: the flags after a tick are read off its kind, and each case of a tick is again that case under other flags. -/
theorem statusFlagsRules : Obligations.StatusFlagsRules := by
  constructor
  · intro s t hstep
    obtain ⟨-, hcase⟩ := step_cases hstep
    exact ⟨hcase.kind.err_iff, hcase.kind.done_iff⟩
  · intro s t d e hstep
    obtain ⟨hw, hcase⟩ := step_cases hstep
    obtain ⟨d', e', hcase'⟩ := hcase.with_flags d e
    exact ⟨d', e', step_of_case (s := { s with done := d, err := e }) hw hcase'⟩

theorem TickKind.hdr_eq (hk : TickKind p s t) (hr : p.rst = false)
    (hs : ¬ (s.phase = .idle ∧ p.start = true ∧ p.cmd.toNat ≤ 5)) : t.hdr = s.hdr := by
  cases hk with
  | reset h => simp [hr] at h
  | hold | illegal => rfl
  | accept _ hp hst hc => exact absurd ⟨hp, hst, hc⟩ hs
  | busy _ _ hhdr => exact hhdr

theorem TickKind.op_eq (hk : TickKind p s t) (hr : p.rst = false) (hs : ¬ (s.phase = .idle ∧ p.start = true)) :
    t.op = s.op := by
  cases hk with
  | reset h => simp [hr] at h
  | hold => rfl
  | illegal _ hp hst | accept _ hp hst => exact absurd ⟨hp, hst⟩ hs
  | busy _ _ _ hop => exact hop

/-- Settles O40: of the kinds of tick without reset only acceptance writes `HDR`, and only it and the fault write `OP`. -/
theorem headerChangesOnlyAtAcceptance : Obligations.HeaderChangesOnlyAtAcceptance := by
  intro s t hstep hr
  obtain ⟨-, hcase⟩ := step_cases hstep
  exact ⟨hcase.kind.hdr_eq hr, hcase.kind.op_eq hr⟩

end Sys2Proof.Machine
end

section
/-!
PROOF. What a frame element leaves in the header and in `FRAME` (10_state.md rules R12, R13, R15; notes/assumptions/7.md).
-/

namespace Sys2Proof

/-- Frame bits 31 to 0 do not depend on the top byte. -/
theorem frameWord_extractLsb'_low32 (p : PrefixBits) (rid : RemoteId) (ch : Channel) (c : Code) :
    (frameWord p rid ch c).extractLsb' 0 32 = rid ++ ch ++ 0#4 ++ c := by
  refine BitVec.eq_of_getLsbD_eq fun i hi => ?_
  have hrid : i - 8 - 4 - 4 < 16 := by omega
  simp only [frameWord, BitVec.getLsbD_extractLsb', BitVec.getLsbD_append, Nat.zero_add, hi, hrid, decide_true, Bool.true_and,
    if_true]

end Sys2Proof

namespace Sys2Proof.Machine

/-- `HDR.PREFIX` is the parameter in every state: the field is hardwired (10_state.md rule R12). -/
theorem hdr_prefix (s : State) : s.hdr.extractLsb' 20 8 = s.params.pfx := by
  ext i hi
  simp only [State.hdr, BitVec.getElem_extractLsb', BitVec.getLsbD_append]
  simp [show ¬ 20 + i < 4 by omega, show ¬ 20 + i - 4 < 16 by omega, show 20 + i - 4 - 16 = i by omega, hi]

/-- A frame element is the transmission of a primary code `c` in a pass `b`, and its bits are those of its fields and the code that is
effective in that pass. -/
theorem frame_element {i : Instr} (h : (encode i).format = .frame) :
    ∃ (p : PrefixBits) (rid : RemoteId) (ch : Channel) (c : Code) (b : Bool),
      (encode i).bits = (frameWord p rid ch (if b then confirmCode c else c)).toNat ∧
      (∀ cfg : Config, i.wellFormed cfg = (p == cfg.pfx)) ∧
      ∀ s : State, exec i s = .next (transmit c b rid ch s) := by
  cases i with
  | frameUpPrimary p rid ch => exact ⟨p, rid, ch, codeUp, false, rfl, fun _ => rfl, fun _ => rfl⟩
  | frameUpConfirm p rid ch => exact ⟨p, rid, ch, codeUp, true, rfl, fun _ => rfl, fun _ => rfl⟩
  | frameDownPrimary p rid ch => exact ⟨p, rid, ch, codeDown, false, rfl, fun _ => rfl, fun _ => rfl⟩
  | frameDownConfirm p rid ch => exact ⟨p, rid, ch, codeDown, true, rfl, fun _ => rfl, fun _ => rfl⟩
  | frameStop p rid ch => exact ⟨p, rid, ch, codeStop, false, rfl, fun _ => rfl, fun _ => rfl⟩
  | frameLearn p rid ch => exact ⟨p, rid, ch, codeLearn, false, rfl, fun _ => rfl, fun _ => rfl⟩
  | _ => cases h

/-- `FRAME` after a transmission begins: the given fields under the block's own `PREFIX`. -/
theorem frame_transmit (c : Code) (b : Bool) (rid : RemoteId) (ch : Channel) (s : State) :
    (transmit c b rid ch s).frame = frameWord s.params.pfx rid ch (if b then confirmCode c else c) := rfl

/-- Settles O27: `FRAME` is composed of the element's fields under the block's `PREFIX`, which is the element's top byte where it is
well formed. -/
theorem frameRegisterHoldsTheFrameSent : Obligations.FrameRegisterHoldsTheFrameSent := by
  intro s t i hf hexec
  obtain ⟨p, rid, ch, c, b, hbits, hwf, he⟩ := frame_element hf
  rw [he s] at hexec
  cases hexec
  rw [hbits, frame_transmit]
  refine ⟨hdr_prefix _, ?_, fun h => ?_⟩
  · rw [BitVec.ofNat_toNat, BitVec.setWidth_eq, frameWord_extractLsb'_low32, frameWord_extractLsb'_low32]
  · rw [hwf, beq_iff_eq] at h
    rw [h]

end Sys2Proof.Machine
end

section
/-!
PROOF. The clauses of rule R34 and the canonical idle state, from the invariant (10_state.md rules R14, R24, R33, R34).
-/

namespace Sys2Proof.Machine

variable {s : State}

/-- A busy block is in a SEND step or in a WAIT step. -/
theorem sends_or_wait (hb : s.busy = true) : s.phase.sends = true ∨ s.phase = .wait := by
  rw [busy_iff] at hb
  cases hp : s.phase <;> simp_all [Phase.sends]

/-- Where the step table is while the block is busy, and the code that goes with it. -/
theorem State.Inv.current_step (h : s.Inv) (hb : s.busy = true) :
    (∃ x, (prog s.op)[s.stepIdx.toNat]? = some x) ∧ s.code ∈ [codeUp, codeDown, codeStop, codeLearn] := by
  rcases sends_or_wait hb with hp | hp
  · have hsend := (h.inSend hp).send
    exact ⟨⟨_, hsend⟩, primary_of_prog_send hsend⟩
  · obtain ⟨⟨w, hwait⟩, -, hcode⟩ := (stepAgrees_wait hp).1 (h.step_agrees hb)
    exact ⟨⟨_, hwait⟩, by simp [hcode]⟩

/-- 10_state.md rule R34. -/
theorem State.Inv.ruleR34 (h : s.Inv) : s.RuleR34 where
  a := by
    rw [h.tx_high]
    cases s.phase <;> simp [Phase.high]
  b := hdr_prefix s
  c := h.rest
  d := ⟨Nat.zero_le _, h.bitIdx_le⟩
  e hb := ⟨fun _ => h.rep_range hb, fun hp => ((stepAgrees_wait hp).1 (h.step_agrees hb)).2.1⟩
  f := h.pass_conf
  g hb := by
    obtain ⟨⟨x, hx⟩, -⟩ := h.current_step hb
    have hlt := (List.getElem?_eq_some_iff.1 hx).1
    exact ⟨legal_of_prog_getElem? hx, Nat.le_sub_one_of_lt hlt⟩
  h := h.err_fault
  i := h.done_idle

/-- An idle state has the reset value in every register but `OP`, `HDR`, `CODE` and `DONE` (10_state.md rule R33). -/
theorem State.Inv.canonical (h : s.Inv) (hp : s.phase = .idle) :
    s = State.canonicalIdle s.params s.op s.hdrRid s.hdrCh s.code s.done s.inputs := by
  obtain ⟨htmr, htx⟩ := h.rest (.inl hp)
  obtain ⟨hstep, hpass, hconf, hrep, hbit⟩ := h.idle_canonical (by simp [State.busy, hp])
  have herr := h.not_err (by simp [hp])
  cases s
  simp_all [State.canonicalIdle, State.resetOf]

theorem load_le_final (c : Config) {d : Nat} (hd : d ≤ finalUs) : load c d ≤ load c finalUs :=
  Nat.sub_le_sub_right (Nat.mul_le_mul_right _ hd) 1

/-- The longest phase is the final gap (10_state.md rule R24). -/
theorem tmrBound_le (s : State) : s.tmrBound ≤ load s.params finalUs := by
  unfold State.tmrBound
  split
  case h_1 | h_2 => exact Nat.zero_le _
  case h_5 | h_6 => exact load_le_final _ (by cases s.frameBit <;> decide)
  case h_8 => exact load_le_final _ (by split <;> decide)
  all_goals exact load_le_final _ (by decide)

/-- Settles O45: the clauses are the invariant's, with the step that `OP` and `STEP` point at read off the table. -/
theorem reachableStatesObeyR34 : Obligations.ReachableStatesObeyR34 := by
  intro s h
  refine ⟨h.ruleR34, fun hb => (h.current_step hb).2, h.canonical, ?_⟩
  have hfinal : load s.params finalUs + 1 = 100000 * s.params.ticksPerUs := load_add_one _ h.params_wf _ (by decide)
  exact Nat.lt_of_le_of_lt (h.tmr_le.trans (tmrBound_le s)) (by omega)

end Sys2Proof.Machine
end

section
/-!
PROOF. The decoder and the encoder undo each other (30_encoding.md rules R55, R68 to R70, R73). A request and a frame are each the
composition of their fields, on which the decoder is a table: of the selectors, and of the six codes. The other formats have no operand.
-/

namespace Sys2Proof

/-! ## The two tables -/

/-- The request decoder on a bundle of ports: by its selector alone. -/
theorem decodeCommand_requestWord (sel : Selector) (rid : RemoteId) (ch : ChannelPort) :
    decodeCommand (requestWord sel rid ch) =
      if sel = 0#3 then .up rid ch
      else if sel = 1#3 then .down rid ch
      else if sel = 2#3 then .stop rid ch
      else if sel = 3#3 then .learn rid ch
      else if sel = 4#3 then .pair rid ch
      else if sel = 5#3 then .chdir rid ch
      else if sel = 6#3 then .reserved6
      else .reserved7 := by
  simp [decodeCommand]

/-- Settles O3: the eight rows of the table of selectors. -/
theorem selectorNumbersNameTheCommands : Obligations.SelectorNumbersNameTheCommands := by
  intro rid ch
  simp [decodeCommand_requestWord]

/-- Settles O1: a request by the table of selectors, a frame by that of codes, and the others by evaluation. -/
theorem decodeOfEncode : Obligations.DecodeOfEncode := by
  intro i
  cases i with
  | up | down | stop | learn | pair | chdir | reserved6 | reserved7 =>
    exact (decode_cmdsel_toNat _).trans (congrArg _ (decodeCommand_requestWord ..))
  | frameUpPrimary | frameUpConfirm | frameDownPrimary | frameDownConfirm | frameStop | frameLearn =>
    exact (decode_frame_toNat _).trans (decodeFrame_frameWord ..)
  | sync | bit0 | bit1 | gap | waitInterpress | waitFinal => rfl

/-! ## The other direction -/

/-- Only the reserved selectors drop the operand ports. -/
theorem encode_of_decodeCommand {w : RequestWord} {i : Instr} (h : decodeCommand w = i) (h6 : i ≠ .reserved6)
    (h7 : i ≠ .reserved7) : encode i = ⟨.cmdsel, w.toNat⟩ := by
  obtain ⟨sel, rid, ch, rfl⟩ : ∃ sel rid ch, w = requestWord sel rid ch := ⟨_, _, _, (requestWord_fields w).symm⟩
  rw [decodeCommand_requestWord] at h
  split_ifs at h with hs hs hs hs hs hs hs
  iterate 6 · subst hs h; rfl
  · exact absurd h.symm h6
  · exact absurd h.symm h7

theorem encode_of_decodeFrame {f : Frame} {i : Instr} (h : decodeFrame f = .ok i) : encode i = ⟨.frame, f.toNat⟩ := by
  have hrsv : frameRsv f = 0#4 := by
    by_contra hne
    simp [decodeFrame, hne] at h
  obtain ⟨p, rid, ch, k, rfl⟩ : ∃ p rid ch k, f = frameWord p rid ch k := ⟨_, _, _, _, (frameWord_fields f hrsv).symm⟩
  rw [decodeFrame_frameWord] at h
  split_ifs at h with hk hk hk hk hk hk
  all_goals cases h; subst hk; rfl

theorem lt_of_decode {fm : Format} {w : Nat} {i : Instr} (h : decode fm w = .ok i) : w < 2 ^ fm.width := by
  by_contra hge
  simp [decode, Nat.not_lt.1 hge] at h

/-- Settles O2: requests and frames by their fields; a format without operands has one value for each of its elements. -/
theorem encodeOfDecode : Obligations.EncodeOfDecode := by
  intro fm w i h h6 h7
  have hw := lt_of_decode h
  cases fm with
  | cmdsel =>
    obtain ⟨v, rfl⟩ : ∃ v : RequestWord, v.toNat = w := ⟨.ofNatLT w hw, rfl⟩
    rw [decode_cmdsel_toNat] at h
    exact encode_of_decodeCommand (Except.ok.inj h) h6 h7
  | frame =>
    obtain ⟨f, rfl⟩ : ∃ f : Frame, f.toNat = w := ⟨.ofNatLT w hw, rfl⟩
    rw [decode_frame_toNat] at h
    exact encode_of_decodeFrame h
  | symbolBit =>
    obtain rfl | rfl : w = 0 ∨ w = 1 := Nat.le_one_iff_eq_zero_or_eq_one.1 (Nat.lt_succ_iff.1 hw)
    all_goals cases h; rfl
  | symbolSync | waitGap | waitInterpress | waitFinal =>
    obtain rfl : w = 0 := Nat.lt_one_iff.1 hw
    cases h; rfl

/-! ## The frames that can be sent -/

/-- The six codes that a frame can end in: 0x11, 0x1E, 0x33, 0x3C, 0x55, 0xCC (30_encoding.md rule R73). -/
def frameCodes : List Code :=
  [codeUp, confirmCode codeUp, codeDown, confirmCode codeDown, codeStop, codeLearn]

/-- The fields of a frame element; the configurations that can carry it are those with its top byte as `PREFIX`. -/
theorem frame_of_encode {f : Frame} {i : Instr} (h : encode i = ⟨.frame, f.toNat⟩) :
    (∀ c : Config, i.wellFormed c = (framePrefix f == c.pfx)) ∧ frameRsv f = 0#4 ∧ frameCode f ∈ frameCodes := by
  have hf {p rid ch k} (hb : (⟨.frame, (frameWord p rid ch k).toNat⟩ : Encoded) = ⟨.frame, f.toNat⟩) :
      frameWord p rid ch k = f := BitVec.eq_of_toNat_eq (congrArg Encoded.bits hb)
  cases i with
  | frameUpPrimary | frameUpConfirm | frameDownPrimary | frameDownConfirm | frameStop | frameLearn =>
    rw [← hf h]
    simp [Instr.wellFormed, frameCodes]
  | _ => cases congrArg Encoded.format h

/-- A frame with its reserved bits 0 decodes to the element that has its fields and its code. -/
theorem decode_frame_of_code {f : Frame} {k : Code} {i : Instr} (hrsv : frameRsv f = 0#4) (hk : frameCode f = k)
    (hi : encode i = ⟨.frame, (frameWord (framePrefix f) (frameRid f) (frameCh f) k).toNat⟩) :
    decode .frame f.toNat = .ok i := by
  rw [← hk, frameWord_fields f hrsv] at hi
  simpa only [hi] using decodeOfEncode i

theorem exists_decode_frame {f : Frame} (hrsv : frameRsv f = 0#4) (hk : frameCode f ∈ frameCodes) :
    ∃ i, decode .frame f.toNat = .ok i := by
  simp only [frameCodes, List.mem_cons, List.not_mem_nil, or_false] at hk
  rcases hk with hk | hk | hk | hk | hk | hk
  · exact ⟨.frameUpPrimary .., decode_frame_of_code hrsv hk rfl⟩
  · exact ⟨.frameUpConfirm .., decode_frame_of_code hrsv hk rfl⟩
  · exact ⟨.frameDownPrimary .., decode_frame_of_code hrsv hk rfl⟩
  · exact ⟨.frameDownConfirm .., decode_frame_of_code hrsv hk rfl⟩
  · exact ⟨.frameStop .., decode_frame_of_code hrsv hk rfl⟩
  · exact ⟨.frameLearn .., decode_frame_of_code hrsv hk rfl⟩

/-- Settles O5: an element that a frame decodes to encodes to that frame, whose fields then say which
configurations can carry it; and a frame of each of the six codes decodes by the round trip. -/
theorem sendableFramesAreThoseOfR73 : Obligations.SendableFramesAreThoseOfR73 := by
  intro c f
  have hfields {i : Instr} (hi : decode .frame f.toNat = .ok i) :=
    frame_of_encode (encode_of_decodeFrame ((decode_frame_toNat f).symm.trans hi))
  refine ⟨⟨?_, ?_⟩, fun hrsv => ⟨?_, ?_, ?_, ?_, ?_, ?_⟩⟩
  · rintro ⟨i, hi, hwf⟩
    obtain ⟨hp, hrsv, hk⟩ := hfields hi
    exact ⟨eq_of_beq ((hp c).symm.trans hwf), hrsv, hk⟩
  · rintro ⟨hp, hrsv, hk⟩
    obtain ⟨i, hi⟩ := exists_decode_frame hrsv hk
    exact ⟨i, hi, ((hfields hi).1 c).trans (beq_iff_eq.2 hp)⟩
  all_goals exact fun hk => decode_frame_of_code hrsv hk rfl

end Sys2Proof
end

section
/-!
PROOF. The composed frame and its confirmation frame, field by field (30_encoding.md rules R60, R62, R63, R72).
-/

namespace Sys2Proof.Machine

variable {s : State}

/-! ## Confirmation frames and codes -/

/-- A confirmation frame keeps every field above the low nibble. -/
theorem extractLsb'_confirm (f : Frame) {start : Nat} (hstart : 4 ≤ start) (len : Nat) :
    (confirm f).extractLsb' start len = f.extractLsb' start len := by
  refine BitVec.eq_of_getLsbD_eq fun i _ => ?_
  simp [getLsbD_confirm, show ¬ start + i < 4 by omega]

theorem confirmCode_high (c : Code) : (confirmCode c).extractLsb' 4 4 = c.extractLsb' 4 4 := by
  refine BitVec.eq_of_getLsbD_eq fun i hi => ?_
  simp [getLsbD_confirmCode c (4 + i) (by omega)]

theorem confirmCode_low (c : Code) : (confirmCode c).extractLsb' 0 4 = ~~~(c.extractLsb' 0 4) := by
  refine BitVec.eq_of_getLsbD_eq fun i hi => ?_
  simp [getLsbD_confirmCode c i (by omega), hi]

/-- Settles O13: each field can be read back from the frame, and `confirm` inverts a bit if and only if it is below bit 4. -/
theorem framesAreUnique : Obligations.FramesAreUnique := by
  refine ⟨fun p p' rid rid' ch ch' k k' h => ⟨?_, ?_, ?_, ?_⟩, fun f i _ => ?_⟩
  · simpa using congrArg framePrefix h
  · simpa using congrArg frameRid h
  · simpa using congrArg frameCh h
  · simpa using congrArg frameCode h
  · rw [getLsbD_confirm]
    cases f.getLsbD i <;> simp

theorem buildFrame_buildHeader (c : Config) (rid : RemoteId) (ch : ChannelPort) (k : Code) :
    buildFrame (buildHeader c rid ch) k = frameWord c.pfx rid (maskChannel ch) k := rfl

/-- Settles O11: a composed frame has its reserved bits 0, and `confirm` keeps them. -/
theorem reservedBitsAreZero : Obligations.ReservedBitsAreZero := by
  refine ⟨fun c rid ch k => ?_, frameRsv_frame⟩
  have hrsv : (buildFrame (buildHeader c rid ch) k).extractLsb' 8 4 = 0#4 := by
    rw [buildFrame_buildHeader]
    exact frameRsv_frameWord ..
  exact ⟨hrsv, (extractLsb'_confirm _ (by decide) 4).trans hrsv⟩

/-! ## The code that a busy block sends -/

/-- Only the commands UP and DOWN have a confirmation pass (30_encoding.md rule R63). -/
theorem State.Inv.code_of_pass (h : s.Inv) (hb : s.busy = true) (hpass : s.pass = true) :
    s.code = codeUp ∨ s.code = codeDown := by
  have hneeds : needsConf s.code = true := (h.conf_code hb).symm.trans (h.pass_conf hpass)
  simpa [needsConf] using hneeds

/-- What a busy block sends is one of the six codes. -/
theorem State.Inv.codeEff_mem (h : s.Inv) (hb : s.busy = true) : s.codeEff ∈ frameCodes := by
  cases hpass : s.pass with
  | false =>
    have hcode := (h.current_step hb).2
    simp only [List.mem_cons, List.not_mem_nil, or_false] at hcode
    rcases hcode with hcode | hcode | hcode | hcode <;> simp [State.codeEff, hpass, hcode, frameCodes]
  | true =>
    rcases h.code_of_pass hb hpass with hcode | hcode <;> simp [State.codeEff, hpass, hcode, frameCodes]

/-- Settles O10: the nibbles bit by bit, the values by evaluation, and the last clause because 0x5A and 0xC3 are none of the six
codes that a busy block sends. -/
theorem confirmationCodeValues : Obligations.ConfirmationCodeValues := by
  refine ⟨fun c => ⟨confirmCode_high c, confirmCode_low c, rfl⟩, by decide, by decide, by decide, by decide, by decide, by decide,
    fun s h hb => ?_⟩
  have hsent : frameCode s.frame ∈ frameCodes := frameCode_frame s ▸ h.codeEff_mem hb
  refine ⟨fun hup hdown => ?_, ?_, ?_⟩
  · by_contra hpass
    exact (h.code_of_pass hb (eq_true_of_ne_false hpass)).elim hup hdown
  · exact ne_of_mem_of_not_mem hsent (by decide)
  · exact ne_of_mem_of_not_mem hsent (by decide)

end Sys2Proof.Machine
end

section
/-!
PROOF. An acceptance tick, and where the ports then stand in `FRAME` (30_encoding.md rules R58, R59, 70_reset_and_hazards.md rule R166).
-/

namespace Sys2Proof.Machine

variable {s : State} {cmd : Selector} {rid : RemoteId} {ch : ChannelPort} {c : Code}

/-- A selector that names a command is accepted in `IDLE`; its step table gives the code of the first step. -/
theorem step_accept (hw : s.params.wf = true) (hp : s.phase = .idle) (hreq : s.Requests cmd rid ch) (hc : cmd.toNat ≤ 5)
    (hfirst : (prog cmd)[0]? = some (.send c)) :
    step s = .next (startFrame (loadSend c (latchRequest cmd rid ch s.consume))) := by
  have hcase := TickCase.accept (p := s.port) (s := s.consume) (by rw [hreq]) hp (by rw [hreq]) (by rwa [hreq]) c
    (by rwa [hreq])
  rw [step_of_case hw hcase, hreq]

/-- `FRAME` after acceptance: the ports' fields and the code of the first step. -/
theorem frame_accept (s : State) (cmd : Selector) (rid : RemoteId) (ch : ChannelPort) (c : Code) :
    (startFrame (loadSend c (latchRequest cmd rid ch s))).frame = frameWord s.params.pfx rid (maskChannel ch) c := rfl

/-- Bits 7 to 4 of the port do not reach the channel. -/
theorem maskChannel_append (hi lo : BitVec 4) : maskChannel (hi ++ lo) = lo := by
  rw [maskChannel_eq]
  exact BitVec.extractLsb'_append_eq_right

/-- Settles O12: the fields of the frame composed at acceptance; the channel port reaches the next state through its mask only. -/
theorem portBitsReachTheFrame : Obligations.PortBitsReachTheFrame := by
  intro s cmd rid ch hw hp hreq hc
  obtain ⟨c, hfirst, -⟩ := exec_request_legal cmd rid ch s hc
  refine ⟨_, step_accept hw hp hreq hc hfirst, fun i hi => ?_, fun i hi => ?_, fun hi => ?_⟩
  · rw [frame_accept, frameWord_getLsbD_rid _ _ _ _ i hi]
  · rw [frame_accept, frameWord_getLsbD_ch _ _ _ _ i hi, maskChannel_eq]
    simp [hi]
  · refine Eq.trans (step_accept hw hp rfl hc hfirst) ?_
    rw [latchRequest, latchRequest, maskChannel_append, maskChannel_eq]
    rfl

end Sys2Proof.Machine
end

section
/-!
PROOF. `emit` and `delay` as traces, and `norm` segment by segment (40_pulse_driver.md rules R81, R84, R86; 00_scope.md rule R9).
-/

namespace Sys2Proof.Machine

variable {l : Bool} {d : Nat}

/-! ## The two primitives -/

theorem emit_of_pos {on off : Nat} (hon : 1 ≤ on) (hoff : 1 ≤ off) : emit on off = some (pulse on off) := if_pos ⟨hon, hoff⟩

theorem emit_zero_high (n : Nat) : emit 0 n = none := if_neg fun h => absurd h.1 (by decide)

theorem emit_zero_low (n : Nat) : emit n 0 = none := if_neg fun h => absurd h.2 (by decide)

theorem delay_of_pos {n : Nat} (hn : 1 ≤ n) : delay n = some (low n) := if_pos hn

theorem dur_pulse (on off : Nat) : dur (pulse on off) = on + off := rfl

/-! ## The normal form -/

theorem normTrace_cons (x : Segment) (t : Trace) : normTrace (x :: t) = normCons x (normTrace t) := rfl

/-- A segment of some duration stays as it is at the end of a trace. -/
theorem normTrace_singleton (hd : 1 ≤ d) : normTrace [(l, d)] = [(l, d)] := if_neg (Nat.ne_of_gt hd)

/-- A segment of some duration stays as it is before a segment of the other level. -/
theorem normCons_of_ne {m : Bool} {e : Nat} (hd : 1 ≤ d) (hlm : l ≠ m) (r : Trace) :
    normCons (l, d) ((m, e) :: r) = (l, d) :: (m, e) :: r := by
  simp [normCons, Nat.ne_of_gt hd, hlm]

/-- A segment of some duration merges with a segment of its own level. -/
theorem normCons_of_eq {e : Nat} (hd : 1 ≤ d) (r : Trace) : normCons (l, d) ((l, e) :: r) = (l, d + e) :: r := by
  simp [normCons, Nat.ne_of_gt hd]

theorem normTrace_pulse_append (on off : Nat) (t : Trace) :
    normTrace (pulse on off ++ t) = normCons (true, on) (normCons (false, off) (normTrace t)) := rfl

/-- A pulse keeps its two segments before a trace that starts high. -/
theorem normTrace_pulse_append_high {on off e : Nat} {t r : Trace} (hon : 1 ≤ on) (hoff : 1 ≤ off)
    (ht : normTrace t = (true, e) :: r) : normTrace (pulse on off ++ t) = pulse on off ++ (true, e) :: r := by
  rw [normTrace_pulse_append, ht, normCons_of_ne hoff (by decide), normCons_of_ne hon (by decide)]
  rfl

/-- A pulse is its own normal form. -/
theorem normTrace_pulse {on off : Nat} (hon : 1 ≤ on) (hoff : 1 ≤ off) : normTrace (pulse on off) = pulse on off := by
  rw [pulse, normTrace_cons, normTrace_singleton hoff, normCons_of_ne hon (by decide)]

/-- A delay merges with the low time of the pulse before it. -/
theorem normTrace_pulse_low {on off n : Nat} (hon : 1 ≤ on) (hoff : 1 ≤ off) (hn : 1 ≤ n) :
    normTrace (pulse on off ++ low n) = pulse on (off + n) := by
  rw [normTrace_pulse_append, low, normTrace_singleton hn, normCons_of_eq hoff, normCons_of_ne hon (by decide), pulse]

/-- Settles O17: two pulses meet at different levels and keep their segments, a pulse and a delay meet at the low level; the worked
example is a case of the latter. -/
theorem emitAndDelayTraces : Obligations.EmitAndDelayTraces := by
  have example7400 : normTrace (pulse 620 320 ++ low 7400) = pulse 620 7720 :=
    normTrace_pulse_low (by decide) (by decide) (by decide)
  refine ⟨fun on off hon hoff => ⟨emit_of_pos hon hoff, dur_pulse on off⟩, fun n => ⟨emit_zero_high n, emit_zero_low n⟩,
    fun n hn => delay_of_pos hn, rfl, rfl, rfl, rfl, fun lo on off n hon hoff hlo hn => ⟨?_, ?_⟩, example7400, ?_⟩
  · exact normTrace_pulse_append_high hon hoff (normTrace_pulse hon hlo)
  · exact normTrace_pulse_low hon hlo hn
  · exact example7400.trans (normTrace_pulse (by decide) (by decide)).symm

end Sys2Proof.Machine
end

section
/-!
PROOF. The tick at which a symbol or a wait begins (40_pulse_driver.md rules R83, R86; 30_encoding.md rules R64, R65, R67).
-/

namespace Sys2Proof.Machine

theorem exec_sync (s : State) : exec .sync s = .next (startFrame s) := rfl

theorem exec_gap (s : State) : exec .gap s = .next (startDelay .gap gapUs s) := rfl

/-- Settles O28: the sync symbol is `start_frame()`, and a bit symbol the start of the pulse of its value. -/
theorem symbolsBeginHigh : Obligations.SymbolsBeginHigh := fun s =>
  ⟨exec_sync s, exec_decodeBit false s, exec_decodeBit true s⟩

/-- Settles O29: a wait is the entry of its phase. -/
theorem waitsBeginWithoutAPinWrite : Obligations.WaitsBeginWithoutAPinWrite := fun s =>
  ⟨exec_gap s, exec_waitElement .interpress s, exec_waitElement .final s⟩

end Sys2Proof.Machine
end

section
/-!
PROOF. A phase tick by tick, and what a symbol or a wait puts on the pin from the tick at which it begins (40_pulse_driver.md rules
R81 to R83, R86).
-/

namespace Sys2Proof.Machine

variable {s t : State} {w : List Bool}

/-! ## Counting down -/

theorem step_countDown (hw : s.params.wf = true) (hb : s.busy = true) (ht : s.tmr ≠ 0) (hr : s.port.rst = false) :
    step s = .next (countDown s.consume) :=
  step_of_case hw (.countDown hr hb ht)

/-- Settles O47, by induction on the number of ticks: each of them lowers `TMR` by 1 and moves the port list on. -/
theorem phasesCountDown : Obligations.PhasesCountDown := by
  intro s k hw hb hk hr
  induction k generalizing s with
  | zero => rfl
  | succ k ih =>
    obtain ⟨hnow, hlater⟩ := noReset_succ hr
    rw [runTicks_succ (step_countDown hw hb (Nat.ne_of_gt (Nat.zero_lt_of_lt hk)) hnow),
      ih (countDown s.consume) hw hb (Nat.le_sub_one_of_lt hk) hlater]
    simp [countDown, State.consume, Nat.sub_sub, Nat.add_comm 1 k]

/-! ## A stretch of a run whose last state is still in the phase -/

/-- From `s`, `w.length` states in a row, `s` the first and `t` the last of them, show `w` on the pin with `busy = 1`, as long as the
host applies no reset. -/
def State.ShowsUpTo (s : State) (w : List Bool) (t : State) : Prop :=
  (∀ (j : Nat) (hj : j < w.length), s.NoReset j → ∃ u, runTicks j s = .next u ∧ u.tx = w[j] ∧ u.busy = true) ∧
  (s.NoReset (w.length - 1) →
    runTicks (w.length - 1) s = .next { t with inputs := s.inputs.drop (w.length - 1) })

/-- What is emitted before a busy state, with the level of that state after it. -/
theorem Emits.showsUpTo (h : s.Emits w t) (hb : t.busy = true) : s.ShowsUpTo (w ++ [t.tx]) t := by
  obtain ⟨hbefore, hend⟩ := h s.inputs
  have hlen : (w ++ [t.tx]).length = w.length + 1 := List.length_append
  refine ⟨fun j hj hr => ?_, by rw [hlen, Nat.add_sub_cancel]; exact hend⟩
  rcases Nat.lt_succ_iff_lt_or_eq.1 (hlen ▸ hj) with hlt | rfl
  · rw [List.getElem_append_left hlt]
    exact hbefore j hr hlt
  · exact ⟨_, hend hr, by simp, hb⟩

/-- The last low time of a trace, shown to its last tick. -/
theorem Emits.showsUpTo_low {T : Nat} {tr : Trace} {d : Nat} (h : s.Emits (wave T tr) t) (hw : t.params.wf = true)
    (hT : t.params.ticksPerUs = T) (hb : t.busy = true) (htx : t.tx = false) (hd : 1 ≤ d) (htmr : t.tmr = load t.params d) :
    s.ShowsUpTo (wave T (tr ++ low d)) { t with tmr := 0 } := by
  have hlow : wave T (low d) = List.replicate t.tmr false ++ [false] := by
    rw [htmr, ← List.replicate_succ', load_add_one _ hw d hd, hT]
    exact List.append_nil _
  have hcount := emits_countDown hw hb t.tmr rfl
  rw [wave_append, hlow, ← List.append_assoc, ← htx]
  exact Emits.showsUpTo (Emits.append h hcount) hb

/-! ## The elements -/

/-- `SYNC` from its first tick. -/
theorem startFrame_showsUpTo (hw : s.params.wf = true) :
    (startFrame s).ShowsUpTo (wave s.params.ticksPerUs syncTrace) { s with phase := .syncLo, tmr := 0, tx := false } := by
  have hhigh : (startFrame s).Emits (wave s.params.ticksPerUs [(true, syncHiUs)]) (syncLow (startFrame s)) :=
    emits_segment (s := startFrame s) hw rfl (by decide) rfl rfl (leads_of_case hw fun _ _ hr => .syncLow hr rfl rfl)
  exact Emits.showsUpTo_low hhigh hw rfl rfl rfl (by decide) rfl

theorem bitUs_pos (b : Bool) : 1 ≤ bitHiUs b ∧ 1 ≤ bitLoUs b := by cases b <;> decide

/-- A bit symbol from its first tick, where `FRAME[BITIDX]` is its bit. -/
theorem startBit_showsUpTo (hw : s.params.wf = true) {b : Bool} (hbit : s.frameBit = b) :
    (startBit b s).ShowsUpTo (wave s.params.ticksPerUs (sym b)) { s with phase := .bitLo, tmr := 0, tx := false } := by
  subst hbit
  obtain ⟨hhi, hlo⟩ := bitUs_pos s.frameBit
  have hhigh : (startBit s.frameBit s).Emits (wave s.params.ticksPerUs [(true, bitHiUs s.frameBit)])
      (bitLow (startBit s.frameBit s)) :=
    emits_segment (s := startBit s.frameBit s) hw rfl hhi rfl rfl (leads_of_case hw fun _ _ hr => .bitLow hr rfl rfl)
  exact Emits.showsUpTo_low hhigh hw rfl rfl rfl hlo rfl

/-- A wait from its first tick, where the pin is low. -/
theorem startDelay_showsUpTo (hw : s.params.wf = true) (htx : s.tx = false) {ph : Phase} {d : Nat}
    (hb : (startDelay ph d s).busy = true) (hd : 1 ≤ d) :
    (startDelay ph d s).ShowsUpTo (wave s.params.ticksPerUs (low d)) { s with phase := ph, tmr := 0, tx := false } := by
  have hshows := Emits.showsUpTo_low (tr := []) (emits_nil (startDelay ph d s)) hw rfl hb htx hd rfl
  rw [← htx]
  exact hshows

/-- Settles O48: the high time of a symbol is one segment, after which its low time, like a wait from its beginning, is shown down to
`TMR = 0`. -/
theorem elementsPutTheirTraceOnThePin : Obligations.ElementsPutTheirTraceOnThePin := by
  intro s i last hw hi
  rcases hi with ⟨rfl, rfl⟩ | ⟨rfl, hbit, rfl⟩ | ⟨rfl, hbit, rfl⟩ | ⟨rfl, htx, rfl⟩ | ⟨rfl, htx, rfl⟩ | ⟨rfl, htx, rfl⟩
  · exact ⟨_, exec_sync s, startFrame_showsUpTo hw⟩
  · exact ⟨_, exec_decodeBit false s, startBit_showsUpTo hw hbit⟩
  · exact ⟨_, exec_decodeBit true s, startBit_showsUpTo hw hbit⟩
  · exact ⟨_, exec_gap s, startDelay_showsUpTo hw htx rfl (by decide)⟩
  · exact ⟨_, exec_waitElement .interpress s, startDelay_showsUpTo hw htx rfl (by decide)⟩
  · exact ⟨_, exec_waitElement .final s, startDelay_showsUpTo hw htx rfl (by decide)⟩

end Sys2Proof.Machine
end

section
/-!
PROOF. The tick at which the transmission of a frame begins (41_frame_transmitter.md rule R95; notes/assumptions/4.md, 7.md, 13.md,
18.md).
-/

namespace Sys2Proof.Machine

/-- All the register writes of `transmit`. -/
theorem transmit_eq (c : Code) (pass : Bool) (rid : RemoteId) (ch : Channel) (s : State) :
    transmit c pass rid ch s = { s with
      hdrRid := rid, hdrCh := ch, code := c, pass := pass,
      tx := true, phase := .syncHi, tmr := 4500 * s.params.ticksPerUs - 1 } := rfl

/-- Settles O26: each of the six frames is the transmission of its primary code, in a primary or in a confirmation pass. -/
theorem frameTransmissionsBegin : Obligations.FrameTransmissionsBegin := fun s _ rid ch =>
  ⟨congrArg Host.Outcome.next (transmit_eq codeUp false rid ch s),
    congrArg Host.Outcome.next (transmit_eq codeUp true rid ch s),
    congrArg Host.Outcome.next (transmit_eq codeDown false rid ch s),
    congrArg Host.Outcome.next (transmit_eq codeDown true rid ch s),
    congrArg Host.Outcome.next (transmit_eq codeStop false rid ch s),
    congrArg Host.Outcome.next (transmit_eq codeLearn false rid ch s)⟩

end Sys2Proof.Machine
end

section
/-!
PROOF. The trace of a transmission, from its bit symbols (41_frame_transmitter.md rules R90, R91, R92, R94). Each fact is proved once of
the `n` lowest bits by induction on `n`, one symbol at a time from the top, and then of the whole transmission, which is one more pulse.
-/

namespace Sys2Proof.Machine

variable {f : Frame} {n : Nat}

/-! ## The symbols, bit by bit -/

theorem sym_eq_ite (b : Bool) : sym b = if b then [(true, 620), (false, 320)] else [(true, 320), (false, 620)] := by
  cases b <;> rfl

theorem bitsTrace_eq_flatMap (f : Frame) (n : Nat) :
    bitsTrace f n = (List.range n).reverse.flatMap fun i => sym (f.getLsbD i) := by
  induction n with
  | zero => rfl
  | succ n ih => simp [bitsTrace, List.range_succ, ih]

/-- Bits that are all alike give one symbol over and over. -/
theorem bitsTrace_of_constant {b : Bool} (h : ∀ i < n, f.getLsbD i = b) :
    bitsTrace f n = (List.replicate n (sym b)).flatten := by
  induction n with
  | zero => rfl
  | succ n ih =>
    rw [bitsTrace, h n n.lt_succ_self, ih fun i hi => h i (hi.trans n.lt_succ_self), List.replicate_succ, List.flatten_cons]

/-- Settles O14: the symbols bit by bit, in the order of the bit numbers counted down from 39. -/
theorem transmitFrameIsSyncAndFortyBits : Obligations.TransmitFrameIsSyncAndFortyBits := by
  have hdown : (List.range 40).map (fun k => 39 - k) = (List.range 40).reverse := by decide
  refine ⟨fun f => ?_, ?_, ?_, by decide⟩
  · simp only [hdown, ← sym_eq_ite, ← bitsTrace_eq_flatMap]
    rfl
  · exact congrArg (syncTrace ++ ·) (bitsTrace_of_constant (b := false) fun i _ => BitVec.getLsbD_zero)
  · exact congrArg (syncTrace ++ ·) (bitsTrace_of_constant (b := true) fun _ hi =>
      BitVec.getLsbD_allOnes.trans (decide_eq_true hi))

/-! ## Pulses and segments -/

theorem transmitFrame_length (f : Frame) : (transmitFrame f).length = 82 := by
  rw [transmitFrame, List.length_append, bitsTrace_length]
  rfl

/-- The segments with even numbers are high and those with odd numbers low. -/
def Alternates (t : Trace) : Prop :=
  ∀ (k : Nat) (x : Segment), t[k]? = some x → x.1 = decide (k % 2 = 0)

theorem Alternates.pulse_append {t : Trace} (h : Alternates t) (on off : Nat) : Alternates (pulse on off ++ t) := by
  intro k x hx
  match k with
  | 0 => cases hx; rfl
  | 1 => cases hx; rfl
  | k + 2 => rw [h k x hx, Nat.add_mod_right]

theorem alternates_bitsTrace (f : Frame) (n : Nat) : Alternates (bitsTrace f n) := by
  induction n with
  | zero => exact fun _ _ h => nomatch h
  | succ n ih => exact ih.pulse_append _ _

/-- The symbol of bit `i` stands at its place, bit `n - 1` first. -/
theorem bitsTrace_getElem? {i : Nat} (hi : i < n) :
    (bitsTrace f n)[2 * (n - 1 - i)]? = some (true, bitHiUs (f.getLsbD i)) ∧
    (bitsTrace f n)[1 + 2 * (n - 1 - i)]? = some (false, bitLoUs (f.getLsbD i)) := by
  induction n with
  | zero => exact absurd hi (Nat.not_lt_zero i)
  | succ n ih =>
    rcases Nat.lt_succ_iff_lt_or_eq.1 hi with hlt | rfl
    · rw [show n + 1 - 1 - i = n - 1 - i + 1 by omega]
      exact ih hlt
    · simp [bitsTrace, sym, pulse]

theorem transmitFrame_getElem? (f : Frame) {i : Nat} (hi : i < 40) :
    (transmitFrame f)[2 + 2 * (39 - i)]? = some (true, bitHiUs (f.getLsbD i)) ∧
    (transmitFrame f)[3 + 2 * (39 - i)]? = some (false, bitLoUs (f.getLsbD i)) := by
  obtain ⟨hhigh, hlow⟩ := bitsTrace_getElem? (f := f) hi
  rw [Nat.add_comm 2, show 3 + 2 * (39 - i) = 1 + 2 * (39 - i) + 2 by omega]
  exact ⟨hhigh, hlow⟩

theorem normTrace_bitsTrace (f : Frame) (n : Nat) : normTrace (bitsTrace f n) = bitsTrace f n := by
  induction n with
  | zero => rfl
  | succ n ih =>
    obtain ⟨hhi, hlo⟩ := bitUs_pos (f.getLsbD n)
    cases n with
    | zero => exact normTrace_pulse hhi hlo
    | succ n => exact normTrace_pulse_append_high hhi hlo ih

theorem normTrace_transmitFrame (f : Frame) : normTrace (transmitFrame f) = transmitFrame f :=
  normTrace_pulse_append_high (by decide) (by decide) (normTrace_bitsTrace f 40)

/-! ## Edges -/

/-- A pulse from a low pin has one rising and one falling edge, and leaves the pin low. -/
theorem edges_pulse_append {on off : Nat} (hon : 1 ≤ on) (hoff : 1 ≤ off) (t : Trace) :
    risingEdges false (pulse on off ++ t) = 1 + risingEdges false t ∧
    fallingEdges false (pulse on off ++ t) = 1 + fallingEdges false t := by
  simp [pulse, risingEdges, fallingEdges, Nat.ne_of_gt hon, Nat.ne_of_gt hoff]

theorem edges_bitsTrace (f : Frame) (n : Nat) :
    risingEdges false (bitsTrace f n) = n ∧ fallingEdges false (bitsTrace f n) = n := by
  induction n with
  | zero => exact ⟨rfl, rfl⟩
  | succ n ih =>
    obtain ⟨hhi, hlo⟩ := bitUs_pos (f.getLsbD n)
    obtain ⟨hrise, hfall⟩ := edges_pulse_append hhi hlo (bitsTrace f n)
    exact ⟨hrise.trans (by rw [ih.1, Nat.add_comm]), hfall.trans (by rw [ih.2, Nat.add_comm])⟩

theorem edges_transmitFrame (f : Frame) :
    risingEdges false (transmitFrame f) = 41 ∧ fallingEdges false (transmitFrame f) = 41 := by
  obtain ⟨hrise, hfall⟩ := edges_bitsTrace f 40
  obtain ⟨hrise', hfall'⟩ := edges_pulse_append (on := syncHiUs) (off := syncLoUs) (by decide) (by decide) (bitsTrace f 40)
  exact ⟨hrise'.trans (by rw [hrise]), hfall'.trans (by rw [hfall])⟩

/-- Settles O15: a transmission is the sync pulse and 40 bit pulses, each with a duration in both halves. -/
theorem transmitFrameHas41Pulses : Obligations.TransmitFrameHas41Pulses := fun f =>
  ⟨transmitFrame_length f, (alternates_bitsTrace f 40).pulse_append syncHiUs syncLoUs, rfl, rfl,
    fun _ hi => transmitFrame_getElem? f hi, normTrace_transmitFrame f, edges_transmitFrame f⟩

/-! ## Length, high time and reading the frame back -/

theorem dur_sym (b : Bool) : dur (sym b) = 940 := by cases b <;> rfl

theorem highTime_sym (b : Bool) : highTime (sym b) = 320 + 300 * b.toNat := by cases b <;> rfl

theorem dur_bitsTrace (f : Frame) (n : Nat) : dur (bitsTrace f n) = 940 * n := by
  induction n with
  | zero => rfl
  | succ n ih => rw [bitsTrace, dur_append, dur_sym, ih]; omega

theorem highTime_bitsTrace (f : Frame) (n : Nat) :
    highTime (bitsTrace f n) = 320 * n + 300 * (List.range n).countP fun i => f.getLsbD i := by
  induction n with
  | zero => rfl
  | succ n ih =>
    rw [bitsTrace, highTime_append, highTime_sym, ih, List.range_succ, List.countP_append, List.countP_singleton]
    cases f.getLsbD n <;> simp <;> omega

theorem dur_transmitFrame (f : Frame) : dur (transmitFrame f) = 43500 := by
  rw [transmitFrame, dur_append, dur_bitsTrace]
  rfl

theorem highTime_transmitFrame (f : Frame) : highTime (transmitFrame f) = 17300 + 300 * ones f := by
  rw [transmitFrame, highTime_append, highTime_bitsTrace, ← Nat.add_assoc]
  rfl

/-- The high time of its symbol tells the value of a bit. -/
theorem recoverBit_transmitFrame (f : Frame) {i : Nat} (hi : i < 40) : recoverBit (transmitFrame f) i = f.getLsbD i := by
  rw [recoverBit, (transmitFrame_getElem? f hi).1]
  cases f.getLsbD i <;> rfl

theorem transmitFrame_injective {f g : Frame} (h : transmitFrame f = transmitFrame g) : f = g :=
  BitVec.eq_of_getLsbD_eq fun i hi => by
    rw [← recoverBit_transmitFrame f hi, h, recoverBit_transmitFrame g hi]

/-- Settles O16: a symbol of either value lasts 940 microseconds, 300 more of them high for a 1, which is how its bit is read back. -/
theorem transmissionLengthAndRecovery : Obligations.TransmissionLengthAndRecovery :=
  ⟨fun f => ⟨dur_transmitFrame f, highTime_transmitFrame f⟩, fun f _ hi => recoverBit_transmitFrame f hi,
    fun _ _ => transmitFrame_injective⟩

end Sys2Proof.Machine
end

section
/-!
PROOF. What the steps of a transmission put on the pin (41_frame_transmitter.md rules R95, R96): phase by phase the high and low times of
its 41 pulses, the bit pulses by induction on the number of the bit that begins.
-/

namespace Sys2Proof.Machine

variable {s t u : State} {T : Nat}

theorem Emits.append_wave {tr tr' : Trace} (h : s.Emits (wave T tr) u) (h' : u.Emits (wave T tr') t) :
    s.Emits (wave T (tr ++ tr')) t := by
  rw [wave_append]
  exact Emits.append h h'

/-- The last tick of a bit pulse that begins in `s`. -/
def State.bitEnd (s : State) : State :=
  { s with phase := .bitLo, tmr := 0, tx := false }

/-- The pulse of bit `BITIDX`, from its first tick to what its last tick leads to. -/
theorem emits_sym (hw : s.params.wf = true) (hl : s.bitEnd.Leads t) :
    (startBit s.frameBit s).Emits (wave s.params.ticksPerUs (sym s.frameBit)) t := by
  obtain ⟨hhi, hlo⟩ := bitUs_pos s.frameBit
  have hhigh : (startBit s.frameBit s).Emits (wave s.params.ticksPerUs [(true, bitHiUs s.frameBit)])
      (bitLow (startBit s.frameBit s)) :=
    emits_segment (s := startBit s.frameBit s) hw rfl hhi rfl rfl (leads_of_case hw fun _ _ hr => .bitLow hr rfl rfl)
  have hlow : (bitLow (startBit s.frameBit s)).Emits (wave s.params.ticksPerUs [(false, bitLoUs s.frameBit)]) t :=
    emits_segment (s := bitLow (startBit s.frameBit s)) hw rfl hlo rfl rfl hl
  exact Emits.append_wave hhigh hlow

/-- The first tick of the pulse of bit `i`. -/
def State.atBit (s : State) (i : Nat) : State :=
  startBit (s.frame.getLsbD i) { s with bitIdx := BitVec.ofNat 6 i }

/-- The first tick of the gap after the transmission that `s` is in. -/
def State.atGap (s : State) : State :=
  { s with tx := false, phase := .gap, tmr := 7400 * s.params.ticksPerUs - 1, bitIdx := 0#6 }

theorem toNat_bitIdx {i : Nat} (hi : i < 40) : (BitVec.ofNat 6 i).toNat = i :=
  Nat.mod_eq_of_lt (hi.trans (by decide))

theorem frameBit_bitIdx (s : State) {i : Nat} (hi : i < 40) :
    State.frameBit { s with bitIdx := BitVec.ofNat 6 i } = s.frame.getLsbD i := by
  rw [State.frameBit, toNat_bitIdx hi]
  exact frameBitAt_of_lt hi

/-- The pulse of bit `i` is that of its symbol. -/
theorem emits_atBit (hw : s.params.wf = true) {i : Nat} (hi : i < 40)
    (hl : State.Leads (State.bitEnd { s with bitIdx := BitVec.ofNat 6 i }) t) :
    (s.atBit i).Emits (wave s.params.ticksPerUs (sym (s.frame.getLsbD i))) t := by
  rw [State.atBit, ← frameBit_bitIdx s hi]
  exact emits_sym (s := { s with bitIdx := BitVec.ofNat 6 i }) hw hl

/-- After bit `i + 1` comes bit `i`. -/
theorem leads_nextBit (hw : s.params.wf = true) {i : Nat} (hi : i + 1 < 40) :
    State.Leads (State.bitEnd { s with bitIdx := BitVec.ofNat 6 (i + 1) }) (s.atBit i) := by
  have hne : BitVec.ofNat 6 (i + 1) ≠ 0#6 := by bv_omega
  have hidx : BitVec.ofNat 6 (i + 1) - 1#6 = BitVec.ofNat 6 i := by bv_omega
  have hbit : frameBitAt s.frame ((BitVec.ofNat 6 (i + 1)).toNat - 1) = s.frame.getLsbD i := by
    rw [toNat_bitIdx hi]
    exact frameBitAt_of_lt (Nat.lt_of_succ_lt hi)
  rw [State.atBit, ← hidx, ← hbit]
  exact leads_of_case hw fun _ _ hr => .nextBit hr rfl rfl hne

/-- The pulses of the bits from `i` down to 0, and then the gap. -/
theorem emits_bitsTrace (hw : s.params.wf = true) {i : Nat} (hi : i < 40) :
    (s.atBit i).Emits (wave s.params.ticksPerUs (bitsTrace s.frame (i + 1))) s.atGap := by
  induction i with
  | zero => exact emits_atBit hw hi (leads_of_case hw fun _ _ hr => .gap hr rfl rfl rfl)
  | succ i ih => exact Emits.append_wave (emits_atBit hw hi (leads_nextBit hw hi)) (ih (Nat.lt_of_succ_lt hi))

/-- The sync pulse, from its first tick, and then bit 39. -/
theorem emits_syncTrace (hw : s.params.wf = true) (hp : s.phase = .syncHi) (htx : s.tx = true)
    (htmr : s.tmr = load s.params syncHiUs) :
    s.Emits (wave s.params.ticksPerUs syncTrace) (s.atBit 39) := by
  have hhigh : s.Emits (wave s.params.ticksPerUs [(true, syncHiUs)]) (syncLow s) :=
    emits_segment hw (by simp [busy_iff, hp]) (by decide) htx htmr (leads_of_case hw fun _ _ hr => .syncLow hr hp rfl)
  have hlow : (syncLow s).Emits (wave s.params.ticksPerUs [(false, syncLoUs)]) (s.atBit 39) :=
    emits_segment (s := syncLow s) hw rfl (by decide) rfl rfl (leads_of_case hw fun _ _ hr => .firstBit hr rfl rfl)
  exact Emits.append_wave hhigh hlow

/-- Settles O49: the sync pulse, the 40 bit pulses from bit 39 down, and the gap. -/
theorem transmissionPutsTheFrameOnThePin : Obligations.TransmissionPutsTheFrameOnThePin := by
  intro s hw hp htx htmr
  refine ⟨by rw [wave_length, dur_transmitFrame], ?_⟩
  exact Emits.append_wave (emits_syncTrace hw hp htx htmr) (emits_bitsTrace hw (by decide))

end Sys2Proof.Machine
end

section
/-!
PROOF. The frame composer as bits (42_command_composer.md rules R100 to R103): `build_header` and `build_frame` as concatenations and as
shifts and ors, `confirm` as an exclusive or.
-/

namespace Sys2Proof.Machine

/-! ## The frame -/

/-- The 40-bit form of a header: bits 39 to 12. -/
def headerField (h : Header) : Frame :=
  h.setWidth 40 <<< 12

theorem buildFrame_eq_or (h : Header) (c : Code) : buildFrame h c = headerField h ||| c.setWidth 40 := by
  have hor := BitVec.setWidth_append_append_eq_shiftLeft_setWidth_or (b := h) (b' := 0#4) (b'' := c) (w''' := 40)
  simpa [buildFrame, headerField] using hor

/-- Header and code have no bit position in common (R101). -/
theorem headerField_or_code_false (h : Header) (c : Code) (i : Nat) :
    (headerField h).getLsbD i = false ∨ (c.setWidth 40).getLsbD i = false := by
  rcases Nat.lt_or_ge i 12 with hi | hi
  · exact .inl (by simp [headerField, hi])
  · exact .inr (by simp [BitVec.getLsbD_of_ge c i (by omega)])

theorem buildFrame_eq_add (h : Header) (c : Code) : buildFrame h c = headerField h + c.setWidth 40 := by
  have hand : headerField h &&& c.setWidth 40 = 0#40 := by
    refine BitVec.eq_of_getLsbD_eq fun i _ => ?_
    rcases headerField_or_code_false h c i with hbit | hbit <;> rw [BitVec.getLsbD_and, hbit] <;> simp
  rw [buildFrame_eq_or, BitVec.add_eq_or_of_and_eq_zero _ _ hand]

theorem buildFrame_eq_xor (h : Header) (c : Code) : buildFrame h c = headerField h ^^^ c.setWidth 40 := by
  rw [buildFrame_eq_or]
  refine BitVec.eq_of_getLsbD_eq fun i _ => ?_
  rcases headerField_or_code_false h c i with hbit | hbit <;> rw [BitVec.getLsbD_or, BitVec.getLsbD_xor, hbit] <;> simp

theorem frameRsv_buildFrame (h : Header) (c : Code) : frameRsv (buildFrame h c) = 0#4 := by
  refine BitVec.eq_of_getLsbD_eq fun i hi => ?_
  simp [frameRsv, getLsbD_buildFrame, show 8 + i < 12 by omega]

/-- Settles O7: a concatenation is a shift and an or, which is a sum and an exclusive or where no bit is 1 in both operands. -/
theorem frameIsHeaderReservedCode : Obligations.FrameIsHeaderReservedCode :=
  ⟨fun h c => ⟨rfl, buildFrame_eq_or h c, buildFrame_eq_add h c, buildFrame_eq_xor h c, frameRsv_buildFrame h c⟩, by decide⟩

/-! ## The header -/

/-- The channel in a wider field is the masked port there. -/
theorem setWidth_maskChannel (ch : ChannelPort) {w : Nat} : (maskChannel ch).setWidth w = (ch &&& 0x0F#8).setWidth w := by
  have hmask : (ch &&& 0x0F#8).toNat < 2 ^ 4 := by
    rw [BitVec.toNat_and]
    exact Nat.and_lt_two_pow _ (by decide)
  apply BitVec.eq_of_toNat_eq
  simp only [maskChannel, BitVec.toNat_setWidth, Nat.mod_eq_of_lt hmask]

/-- `build_header` in a field of any width, as shifts and ors. -/
theorem setWidth_buildHeader (c : Config) (rid : RemoteId) (ch : ChannelPort) (w : Nat) :
    (buildHeader c rid ch).setWidth w =
      (c.pfx.setWidth w <<< 20) ||| (rid.setWidth w <<< 4) ||| (ch &&& 0x0F#8).setWidth w := by
  rw [buildHeader, BitVec.setWidth_append_append_eq_shiftLeft_setWidth_or, setWidth_maskChannel]

theorem headerField_buildHeader (c : Config) (rid : RemoteId) (ch : ChannelPort) :
    headerField (buildHeader c rid ch) =
      (c.pfx.setWidth 40 <<< 32) ||| (rid.setWidth 40 <<< 16) ||| ((ch &&& 0x0F#8).setWidth 40 <<< 12) := by
  simp only [headerField, setWidth_buildHeader, BitVec.shiftLeft_or_distrib, ← BitVec.shiftLeft_add]

/-- A header's 40-bit form is its frame with code 0. -/
theorem headerField_eq_buildFrame (h : Header) : headerField h = buildFrame h 0#8 := by
  simp [buildFrame_eq_or]

/-- What acceptance latches into `HDR` is `build_header` of the ports. -/
theorem hdr_accept (s : State) (cmd : Selector) (rid : RemoteId) (ch : ChannelPort) (c : Code) :
    (startFrame (loadSend c (latchRequest cmd rid ch s))).hdr = buildHeader s.params rid ch := rfl

theorem buildHeader_of_prefix {c : Config} (hp : c.pfx = 0x1F#8) : buildHeader c 0x0042#16 1#8 = 0x1F00421#28 := by
  rw [buildHeader, hp]
  decide

/-- Settles O6: the header as a concatenation, whose 28-bit and 40-bit forms are two widths of the same shifts and ors; the corner cases
look at the mask only; acceptance writes the header's two fields. -/
theorem headerIsBuiltFromThePorts : Obligations.HeaderIsBuiltFromThePorts := by
  refine ⟨fun c rid ch => ⟨?_, ?_, headerField_buildHeader c rid ch, ?_, rfl, rfl⟩, fun c hp => ?_,
    fun s cmd rid ch hw hp hreq hc => ?_⟩
  · rw [buildHeader, maskChannel_eq]
  · exact (BitVec.setWidth_eq _).symm.trans (setWidth_buildHeader c rid ch 28)
  · exact (congrArg frameRsv (headerField_eq_buildFrame _)).trans (frameRsv_buildFrame _ _)
  · rw [buildHeader_of_prefix hp]
    decide
  · obtain ⟨c, hfirst, -⟩ := exec_request_legal cmd rid ch s hc
    exact ⟨_, step_accept hw hp hreq hc hfirst, hdr_accept s.consume cmd rid ch c⟩

/-! ## The confirmation frame -/

theorem confirm_eq_xor (f : Frame) : confirm f = f ^^^ 0x000000000F#40 := by
  refine BitVec.eq_of_getLsbD_eq fun i hi => ?_
  have hmask : (0x000000000F#40).getLsbD i = decide (i < 4) := by
    rw [BitVec.getLsbD_ofNat, show 0x000000000F = 2 ^ 4 - 1 from rfl, Nat.testBit_two_pow_sub_one, decide_eq_true hi,
      Bool.true_and]
  rw [getLsbD_confirm, BitVec.getLsbD_xor, hmask, Bool.xor_comm]

theorem getLsbD_confirm_high (f : Frame) {i : Nat} (hi : 4 ≤ i) : (confirm f).getLsbD i = f.getLsbD i := by
  simp [getLsbD_confirm, Nat.not_lt.2 hi]

theorem getLsbD_confirm_low (f : Frame) {i : Nat} (hi : i < 4) : (confirm f).getLsbD i = !f.getLsbD i := by
  simp [getLsbD_confirm, hi]

/-- The confirmation of a composed frame is the frame of its confirmation code. -/
theorem confirm_buildFrame (h : Header) (c : Code) : confirm (buildFrame h c) = buildFrame h (confirmCode c) := by
  refine BitVec.eq_of_getLsbD_eq fun i _ => ?_
  rw [getLsbD_confirm, getLsbD_buildFrame, getLsbD_buildFrame]
  split_ifs with hcode
  · exact (getLsbD_confirmCode c i hcode).symm
  all_goals simp [show ¬ i < 4 by omega]

/-- Settles O8: `confirm` bit by bit. -/
theorem confirmInvertsTheLowNibble : Obligations.ConfirmInvertsTheLowNibble :=
  ⟨fun f => ⟨confirm_eq_xor f, fun _ => getLsbD_confirm_high f, fun _ => getLsbD_confirm_low f⟩, confirm_buildFrame, by decide,
    by decide⟩

/-! ## The laws of `confirm` -/

theorem confirm_confirm (f : Frame) : confirm (confirm f) = f := by
  rw [confirm_eq_xor, confirm_eq_xor, BitVec.xor_assoc, BitVec.xor_self, BitVec.xor_zero]

/-- They differ in bit 0. -/
theorem confirm_ne (f : Frame) : confirm f ≠ f := fun h =>
  Bool.not_ne_self (f.getLsbD 0) ((getLsbD_confirm_low f (by decide)).symm.trans (congrArg (·.getLsbD 0) h))

theorem extractLsb'_confirm_low (f : Frame) : (confirm f).extractLsb' 0 4 = ~~~(f.extractLsb' 0 4) := by
  refine BitVec.eq_of_getLsbD_eq fun i hi => ?_
  simp [getLsbD_confirm_low f hi, hi]

/-- The 1 bits of the low nibble and those above it. -/
theorem ones_eq_add (f : Frame) :
    ones f = ((List.range 4).countP fun i => f.getLsbD i) + (List.range 36).countP fun i => f.getLsbD (4 + i) := by
  rw [ones, List.range_add (n := 4) (m := 36), List.countP_append, List.countP_map]
  rfl

theorem ones_low (f : Frame) : ones ((f.extractLsb' 0 4).setWidth 40) = (List.range 4).countP fun i => f.getLsbD i := by
  have hhigh : (List.range 36).countP (fun i => ((f.extractLsb' 0 4).setWidth 40).getLsbD (4 + i)) = 0 := by
    simp
  rw [ones_eq_add, hhigh, Nat.add_zero]
  refine List.countP_congr fun i hi => ?_
  have hlt : i < 4 := List.mem_range.1 hi
  simp [hlt, show i < 40 by omega]

/-- Of the four low bits, those that are 1 in the frame and those that are 1 in its confirmation frame are all. -/
theorem countP_confirm_low (f : Frame) :
    ((List.range 4).countP fun i => (confirm f).getLsbD i) + ((List.range 4).countP fun i => f.getLsbD i) = 4 := by
  have hnot : ((List.range 4).countP fun i => (confirm f).getLsbD i) = (List.range 4).countP fun i => ¬ f.getLsbD i := by
    refine List.countP_congr fun i hi => ?_
    simp [getLsbD_confirm_low f (List.mem_range.1 hi)]
  rw [hnot, Nat.add_comm, ← List.length_eq_countP_add_countP, List.length_range]

theorem ones_confirm (f : Frame) : ones (confirm f) + 2 * ones ((f.extractLsb' 0 4).setWidth 40) = ones f + 4 := by
  have hlow := countP_confirm_low f
  have hhigh : ∀ i, (confirm f).getLsbD (4 + i) = f.getLsbD (4 + i) := fun i => getLsbD_confirm_high f (Nat.le_add_right 4 i)
  rw [ones_low, ones_eq_add (confirm f), ones_eq_add f]
  simp only [hhigh]
  omega

/-- Settles O9: `confirm` is an exclusive or with a constant, and the low nibble and its complement have four 1 bits together. -/
theorem confirmLawsOfR103 : Obligations.ConfirmLawsOfR103 := fun f =>
  ⟨confirm_confirm f, confirm_ne f, extractLsb'_confirm f (by decide) 28, extractLsb'_confirm f (by decide) 4,
    extractLsb'_confirm_low f, ones_confirm f⟩

end Sys2Proof.Machine
end

section
/-!
PROOF. `send_pass` and `send_command` (42_command_composer.md rules R105, R106): what a pass has is `n` times what one transmission and
its gap have.
-/

namespace Sys2Proof.Machine

/-! ## Repetition -/

theorem repTrace_eq_flatten (n : Nat) (t : Trace) : repTrace n t = (List.replicate n t).flatten := by
  induction n with
  | zero => rfl
  | succ n ih => rw [repTrace, ih, List.replicate_succ, List.flatten_cons]

theorem dur_repTrace (n : Nat) (t : Trace) : dur (repTrace n t) = n * dur t := by
  induction n with
  | zero => exact (Nat.zero_mul _).symm
  | succ n ih => rw [repTrace, dur_append, ih, Nat.succ_mul, Nat.add_comm]

theorem countP_repTrace (p : Segment → Bool) (n : Nat) (t : Trace) : (repTrace n t).countP p = n * t.countP p := by
  rw [repTrace_eq_flatten, List.countP_flatten, List.map_replicate, List.sum_replicate_nat]

/-! ## One transmission and its gap -/

/-- A segment of the sync pulse's high time. -/
def isSyncHigh (x : Segment) : Bool :=
  x == (true, 4500)

/-- The high time of a bit symbol is not that of the sync pulse. -/
theorem countP_isSyncHigh_bitsTrace (f : Frame) (n : Nat) : (bitsTrace f n).countP isSyncHigh = 0 := by
  have hsym : ∀ b : Bool, (sym b).countP isSyncHigh = 0 := by decide
  induction n with
  | zero => rfl
  | succ n ih => rw [bitsTrace, List.countP_append, hsym, ih]

theorem countP_isSyncHigh_transmission (f : Frame) : (transmitFrame f ++ low gapUs).countP isSyncHigh = 1 := by
  rw [transmitFrame, List.countP_append, List.countP_append, countP_isSyncHigh_bitsTrace]
  rfl

theorem dur_transmission (f : Frame) : dur (transmitFrame f ++ low gapUs) = 50900 := by
  rw [dur_append, dur_transmitFrame]
  rfl

theorem risingEdges_bitsTrace_append (f : Frame) (n : Nat) (t : Trace) :
    risingEdges false (bitsTrace f n ++ t) = n + risingEdges false t := by
  induction n with
  | zero => exact (Nat.zero_add _).symm
  | succ n ih =>
    obtain ⟨hhi, hlo⟩ := bitUs_pos (f.getLsbD n)
    rw [bitsTrace, List.append_assoc, sym, (edges_pulse_append hhi hlo _).1, ih, Nat.add_comm n 1, Nat.add_assoc]

theorem risingEdges_transmitFrame_append (f : Frame) (t : Trace) :
    risingEdges false (transmitFrame f ++ t) = 41 + risingEdges false t := by
  rw [transmitFrame, List.append_assoc, syncTrace, (edges_pulse_append (by decide) (by decide) _).1, risingEdges_bitsTrace_append,
    ← Nat.add_assoc]

theorem risingEdges_low_append (n : Nat) (t : Trace) : risingEdges false (low n ++ t) = risingEdges false t := by
  simp [low, risingEdges]

/-! ## Passes and commands -/

theorem sendPass_eq_flatten (f : Frame) (n : Nat) :
    sendPass f n = (List.replicate n (transmitFrame f ++ [(false, 7400)])).flatten :=
  repTrace_eq_flatten n _

theorem dur_sendPass (f : Frame) (n : Nat) : dur (sendPass f n) = n * 50900 := by
  rw [sendPass, dur_repTrace, dur_transmission]

theorem countP_isSyncHigh_sendPass (f : Frame) (n : Nat) : (sendPass f n).countP isSyncHigh = n := by
  rw [sendPass, countP_repTrace, countP_isSyncHigh_transmission, Nat.mul_one]

/-- A pass ends low, so the edges of what follows it are counted from a low pin. -/
theorem risingEdges_sendPass_append (f : Frame) (n : Nat) (t : Trace) :
    risingEdges false (sendPass f n ++ t) = 41 * n + risingEdges false t := by
  induction n with
  | zero => exact (Nat.zero_add _).symm
  | succ n ih =>
    have hcons : sendPass f (n + 1) ++ t = transmitFrame f ++ (low gapUs ++ (sendPass f n ++ t)) := by
      simp [sendPass, repTrace]
    rw [hcons, risingEdges_transmitFrame_append, risingEdges_low_append, ih]
    omega

theorem risingEdges_sendPass (f : Frame) (n : Nat) : risingEdges false (sendPass f n) = 41 * n := by
  simpa [risingEdges] using risingEdges_sendPass_append f n []

theorem sendCommand_primary (h : Header) (c : Code) (n : Nat) : sendCommand h c n false = sendPass (buildFrame h c) n :=
  List.append_nil _

theorem sendCommand_confirm (h : Header) (c : Code) (n : Nat) :
    sendCommand h c n true = sendPass (buildFrame h c) n ++ sendPass (confirm (buildFrame h c)) n := rfl

theorem dur_sendCommand_primary (h : Header) (c : Code) (n : Nat) : dur (sendCommand h c n false) = n * 50900 := by
  rw [sendCommand_primary, dur_sendPass]

theorem dur_sendCommand_confirm (h : Header) (c : Code) (n : Nat) : dur (sendCommand h c n true) = 2 * n * 50900 := by
  rw [sendCommand_confirm, dur_append, dur_sendPass, dur_sendPass, ← Nat.add_mul, ← Nat.two_mul]

/-- Settles O19: a pass is a repetition of a transmission with its gap, and a command is one pass or two passes in a row. -/
theorem passesAndCommandsOnTheAir : Obligations.PassesAndCommandsOnTheAir := by
  refine ⟨fun f n => ⟨sendPass_eq_flatten f n, dur_sendPass f n, countP_isSyncHigh_sendPass f n, risingEdges_sendPass f n⟩,
    fun h c n => ⟨?_, ?_, dur_sendCommand_primary h c n, dur_sendCommand_confirm h c n⟩, dur_sendCommand_confirm _ _ 6⟩
  · rw [sendCommand_primary, sendPass_eq_flatten]
  · rw [sendCommand_confirm, sendPass_eq_flatten, sendPass_eq_flatten]

end Sys2Proof.Machine
end

section
/-!
PROOF. The traces of the four primitive commands, each one SEND step (43_commands.md rules R116 to R119).
-/

namespace Sys2Proof.Machine

variable {op : Selector} {c : Code}

theorem commandTrace_of_prog (hprog : prog op = [.send c]) (h : Header) (n : Nat) :
    commandTrace op h n = sendCommand h c n (needsConf c) := by
  rw [commandTrace, hprog]
  exact List.append_nil _

/-- The reserved nibble and the code as one field of 12 bits. -/
theorem buildFrame_eq_append (h : Header) (c : Code) : buildFrame h c = h ++ (0#4 ++ c) := by
  rw [buildFrame, BitVec.append_assoc]
  rfl

/-- On the air: the frames of a command without confirmation. -/
theorem commandTrace_primary (hprog : prog op = [.send c]) (hneeds : needsConf c = false) (h : Header) (n : Nat) :
    commandTrace op h n = sendPass (h ++ (0#4 ++ c)) n := by
  rw [commandTrace_of_prog hprog, hneeds, sendCommand_primary, buildFrame_eq_append]

/-- On the air: the frames of a command with confirmation. -/
theorem commandTrace_confirm (hprog : prog op = [.send c]) (hneeds : needsConf c = true) (h : Header) (n : Nat) :
    commandTrace op h n = sendPass (h ++ (0#4 ++ c)) n ++ sendPass (h ++ (0#4 ++ confirmCode c)) n := by
  rw [commandTrace_of_prog hprog, hneeds, sendCommand_confirm, confirm_buildFrame, buildFrame_eq_append, buildFrame_eq_append]

theorem risingEdges_sendCommand_primary (h : Header) (c : Code) (n : Nat) :
    risingEdges false (sendCommand h c n false) = 41 * n := by
  rw [sendCommand_primary, risingEdges_sendPass]

theorem risingEdges_sendCommand_confirm (h : Header) (c : Code) (n : Nat) :
    risingEdges false (sendCommand h c n true) = 2 * (41 * n) := by
  rw [sendCommand_confirm, risingEdges_sendPass_append, risingEdges_sendPass, ← Nat.two_mul]

/-- Masking the port twice is masking it once. -/
theorem buildHeader_masked (cfg : Config) (rid : RemoteId) (ch : ChannelPort) :
    buildHeader cfg rid (ch &&& 0x0F#8) = buildHeader cfg rid ch := by
  rw [buildHeader, buildHeader, maskChannel, maskChannel, BitVec.and_assoc, BitVec.and_self]

/-- Settles O20: a primitive command sends its header with one or two constant fields of 12 bits, and its counts are those of
`send_command`. -/
theorem primitiveCommandTraces : Obligations.PrimitiveCommandTraces := by
  have hup (h : Header) (n : Nat) : commandTrace 0#3 h n = sendPass (h ++ 0x011#12) n ++ sendPass (h ++ 0x01E#12) n :=
    commandTrace_confirm (c := codeUp) rfl rfl h n
  have hdown (h : Header) (n : Nat) : commandTrace 1#3 h n = sendPass (h ++ 0x033#12) n ++ sendPass (h ++ 0x03C#12) n :=
    commandTrace_confirm (c := codeDown) rfl rfl h n
  have hstop (h : Header) (n : Nat) : commandTrace 2#3 h n = sendPass (h ++ 0x055#12) n :=
    commandTrace_primary (c := codeStop) rfl rfl h n
  have hlearn (h : Header) (n : Nat) : commandTrace 3#3 h n = sendPass (h ++ 0x0CC#12) n :=
    commandTrace_primary (c := codeLearn) rfl rfl h n
  have hheader : buildHeader Config.default 0x0042#16 1#8 = 0x1F00421#28 := buildHeader_of_prefix rfl
  refine ⟨fun h n => ⟨hup h n, hdown h n, hstop h n, hlearn h n, commandTrace_of_prog rfl h n, commandTrace_of_prog rfl h n,
    commandTrace_of_prog rfl h n, commandTrace_of_prog rfl h n⟩, fun h => ?_,
    fun cfg rid ch => ⟨rfl, rfl, rfl, rfl, buildHeader_masked cfg rid ch⟩, ?_⟩
  · rw [commandTrace_of_prog (op := 0#3) rfl, commandTrace_of_prog (op := 1#3) rfl, commandTrace_of_prog (op := 2#3) rfl,
      commandTrace_of_prog (op := 3#3) rfl]
    exact ⟨dur_sendCommand_confirm .., dur_sendCommand_confirm .., dur_sendCommand_primary .., dur_sendCommand_primary ..,
      risingEdges_sendCommand_confirm .., risingEdges_sendCommand_confirm .., risingEdges_sendCommand_primary ..,
      risingEdges_sendCommand_primary ..⟩
  · rw [hheader]
    exact ⟨hup _ 6, hdown _ 6, hstop _ 6, hlearn _ 6⟩

end Sys2Proof.Machine
end

section
/-!
PROOF. The tick at which a command is accepted (70_reset_and_hazards.md rule R166).
-/

namespace Sys2Proof.Machine

/-- All the register writes of an acceptance tick. -/
theorem issueCommand_eq {s : State} (hp : s.phase = .idle) (sel : Selector) (c : Code) (rid : RemoteId) (ch : ChannelPort) :
    issueCommand sel c rid ch s = { s with
      op := sel, hdrRid := rid, hdrCh := (ch &&& 0x0F#8).setWidth 4, done := false, stepIdx := 0#3,
      code := c, conf := needsConf c, pass := false, rep := s.params.repeatCount,
      tx := true, phase := .syncHi, tmr := 4500 * s.params.ticksPerUs - 1 } :=
  if_pos hp

/-- Settles O22: each of the four is the issue of its selector with the code of its one step. -/
theorem primitiveCommandsAreAccepted : Obligations.PrimitiveCommandsAreAccepted := fun _ rid ch hp =>
  ⟨congrArg Host.Outcome.next (issueCommand_eq hp 0#3 codeUp rid ch),
    congrArg Host.Outcome.next (issueCommand_eq hp 1#3 codeDown rid ch),
    congrArg Host.Outcome.next (issueCommand_eq hp 2#3 codeStop rid ch),
    congrArg Host.Outcome.next (issueCommand_eq hp 3#3 codeLearn rid ch)⟩

end Sys2Proof.Machine
end

section
/-!
PROOF. What an accepted command puts on the pin (43_commands.md rule R115, 70_reset_and_hazards.md rule R167): a transmission with its
gap, a pass by induction on `REP`, a step, and the steps of a command by induction on those that are left. The registers that the
outputs and `HDR` are read from are kept at every tick between two busy states.
-/

namespace Sys2Proof.Machine

variable {s t u : State} {n : Nat} {x y : CmdStep} {c : Code}

/-! ## A transmission and a pass -/

/-- The last tick of the gap after the transmission that `s` begins or is in. -/
def State.atGapEnd (s : State) : State :=
  { s with tx := false, phase := .gap, tmr := 0, bitIdx := 0#6 }

theorem emits_transmission (hw : s.params.wf = true) (hl : s.atGapEnd.Leads t) :
    (startFrame s).Emits (wave s.params.ticksPerUs (transmitFrame s.frame ++ low gapUs)) t := by
  have hframe := (transmissionPutsTheFrameOnThePin (startFrame s) hw rfl rfl rfl).2
  have hgap : s.atGap.Emits (wave s.params.ticksPerUs (low gapUs)) t :=
    emits_segment (s := s.atGap) hw rfl (by decide) rfl rfl hl
  exact Emits.append_wave hframe hgap

/-- A pass of as many transmissions as `REP` says, each but the last leading to the next one. -/
theorem emits_sendPass (hw : s.params.wf = true) (hrep : s.rep.toNat = n + 1)
    (hl : State.Leads { s.atGapEnd with rep := 1#4 } t) :
    (startFrame s).Emits (wave s.params.ticksPerUs (sendPass s.frame (n + 1))) t := by
  induction n generalizing s with
  | zero =>
    have hone : 1#4 = s.rep := BitVec.eq_of_toNat_eq hrep.symm
    rw [hone] at hl
    rw [sendPass, repTrace, repTrace, List.append_nil]
    exact emits_transmission hw hl
  | succ n ih =>
    have hlow : (decRep s.rep).toNat = n + 1 := by
      rw [decRep_of_ne (by bv_omega)]
      bv_omega
    have hagain : s.atGapEnd.Leads (startFrame { s with bitIdx := 0#6, rep := decRep s.rep }) :=
      leads_of_case hw fun _ _ hr => .again hr rfl rfl (show s.rep ≠ 1#4 by bv_omega)
    exact Emits.append_wave (emits_transmission hw hagain)
      (ih (s := { s with bitIdx := 0#6, rep := decRep s.rep }) hw hlow hl)

/-! ## A step -/

/-- The first state of a step of a command. -/
def State.stepBegin (s : State) : CmdStep → State
  | .send c => startFrame (loadSend c s)
  | .wait w => startDelay .wait (waitUs w) s

/-- The last tick of a step of a command: for a SEND, of the gap after its last pass. -/
def State.stepEnd (s : State) : CmdStep → State
  | .send c => { (loadSend c s).atGapEnd with pass := needsConf c, rep := 1#4 }
  | .wait _ => { s with tx := false, phase := .wait, tmr := 0 }

theorem exists_repeatCount (hw : s.params.wf = true) : ∃ n, s.params.repeatCount.toNat = n + 1 := by
  have hne : s.params.repeatCount ≠ 0#4 := by
    simp only [Config.wf, Bool.and_eq_true, bne_iff_ne] at hw
    exact hw.1
  exact Nat.exists_eq_succ_of_ne_zero fun h => hne (BitVec.eq_of_toNat_eq h)

/-- A SEND step: one pass, or a primary and a confirmation pass. -/
theorem emits_send (hw : s.params.wf = true) (hl : (s.stepEnd (.send c)).Leads t) :
    (startFrame (loadSend c s)).Emits
      (wave s.params.ticksPerUs (sendCommand s.hdr c s.params.repeatCount.toNat (needsConf c))) t := by
  obtain ⟨n, hn⟩ := exists_repeatCount hw
  rw [hn]
  cases hconf : needsConf c with
  | false =>
    rw [sendCommand_primary]
    rw [State.stepEnd, hconf] at hl
    exact emits_sendPass (s := loadSend c s) hw hn hl
  | true =>
    rw [sendCommand_confirm, confirm_buildFrame]
    rw [State.stepEnd, hconf] at hl
    have hconfirm : State.Leads { (loadSend c s).atGapEnd with rep := 1#4 }
        (startFrame (beginConfirmPass (loadSend c s).atGapEnd)) :=
      leads_of_case hw fun _ _ hr => .confirm hr rfl rfl rfl ⟨rfl, hconf⟩
    exact Emits.append_wave (emits_sendPass (s := loadSend c s) hw hn hconfirm)
      (emits_sendPass (s := beginConfirmPass (loadSend c s).atGapEnd) hw hn hl)

theorem waitUs_pos (w : WaitKind) : 1 ≤ waitUs w := by cases w <;> decide

/-- A step of a command that begins where the pin is low. -/
theorem emits_step (hw : s.params.wf = true) (htx : s.tx = false) (hl : (s.stepEnd x).Leads t) :
    (s.stepBegin x).Emits (wave s.params.ticksPerUs (stepTrace s.hdr s.params.repeatCount.toNat x)) t := by
  cases x with
  | send c => exact emits_send hw hl
  | wait w =>
    rw [State.stepEnd, ← htx] at hl
    exact emits_segment (s := startDelay .wait (waitUs w) s) hw rfl (waitUs_pos w) htx rfl hl

/-! ## The steps of a command -/

@[simp] theorem stepEnd_params (s : State) (x : CmdStep) : (s.stepEnd x).params = s.params := by cases x <;> rfl
@[simp] theorem stepEnd_op (s : State) (x : CmdStep) : (s.stepEnd x).op = s.op := by cases x <;> rfl
@[simp] theorem stepEnd_stepIdx (s : State) (x : CmdStep) : (s.stepEnd x).stepIdx = s.stepIdx := by cases x <;> rfl
@[simp] theorem stepEnd_hdr (s : State) (x : CmdStep) : (s.stepEnd x).hdr = s.hdr := by cases x <;> rfl
@[simp] theorem stepEnd_tmr (s : State) (x : CmdStep) : (s.stepEnd x).tmr = 0 := by cases x <;> rfl
@[simp] theorem stepEnd_tx (s : State) (x : CmdStep) : (s.stepEnd x).tx = false := by cases x <;> rfl

/-- At its last tick a step is over: no transmission and no pass is left. -/
theorem stepEnd_over (s : State) (x : CmdStep) :
    (s.stepEnd x).phase = .wait ∨
      ((s.stepEnd x).phase = .gap ∧ (s.stepEnd x).rep = 1#4 ∧ ¬ ((s.stepEnd x).pass = false ∧ (s.stepEnd x).conf = true)) := by
  cases x with
  | send c => exact .inr ⟨rfl, rfl, fun ⟨hpass, hconf⟩ => Bool.false_ne_true (hpass.symm.trans hconf)⟩
  | wait w => exact .inl rfl

/-- The state that the step after `x` begins on: `STEP` is moved on. -/
def State.stepNext (s : State) (x : CmdStep) : State :=
  { s.stepEnd x with stepIdx := (s.stepEnd x).stepIdx + 1#3 }

theorem leads_stepNext (hw : s.params.wf = true) (hnext : (prog s.op)[s.stepIdx.toNat + 1]? = some y) :
    (s.stepEnd x).Leads ((s.stepNext x).stepBegin y) := by
  have hw' : (s.stepEnd x).params.wf = true := by simpa using hw
  have hnext' : (prog (s.stepEnd x).op)[(s.stepEnd x).stepIdx.toNat + 1]? = some y := by simpa using hnext
  cases y with
  | send c =>
    exact leads_of_case hw' fun ins _ hr =>
      .nextSend (s := { s.stepEnd x with inputs := ins }) hr (stepEnd_tmr s x) (stepEnd_over s x) c hnext'
  | wait w =>
    exact leads_of_case hw' fun ins _ hr =>
      .nextWait (s := { s.stepEnd x with inputs := ins }) hr (stepEnd_tmr s x) (stepEnd_over s x) w hnext'

theorem leads_complete (hw : s.params.wf = true) (hlast : s.stepIdx.toNat + 1 = (prog s.op).length) :
    (s.stepEnd x).Leads (complete (s.stepEnd x)) :=
  leads_of_case (by simpa using hw) fun _ _ hr => .complete hr (stepEnd_tmr s x) (stepEnd_over s x) (by simpa using hlast)

/-- The state after a command whose last step sends `c`: canonical but for `ERR` (10_state.md rule R33). -/
def State.completed (s : State) (c : Code) : State :=
  { State.canonicalIdle s.params s.op s.hdrRid s.hdrCh c true s.inputs with err := s.err }

/-- The steps that are left of a command, from the first tick of the next of them, where the pin was low. -/
theorem emits_steps {xs : List CmdStep} (hw : s.params.wf = true) (htx : s.tx = false)
    (hleft : (prog s.op).drop s.stepIdx.toNat = x :: xs) (hlast : (x :: xs).getLast? = some (.send c)) :
    (s.stepBegin x).Emits (wave s.params.ticksPerUs (stepsTrace s.hdr s.params.repeatCount.toNat (x :: xs))) (s.completed c) := by
  induction xs generalizing s x with
  | nil =>
    obtain rfl : x = .send c := by simpa using hlast
    have hlen : s.stepIdx.toNat + 1 = (prog s.op).length := by
      have := congrArg List.length hleft
      simp only [List.length_drop, List.length_singleton] at this
      omega
    rw [stepsTrace, stepsTrace, List.append_nil]
    exact emits_step hw htx (leads_complete hw hlen)
  | cons y ys ih =>
    have hnext : (prog s.op)[s.stepIdx.toNat + 1]? = some y := by
      rw [← List.getElem?_drop, hleft]
      rfl
    have hleft' : (prog (s.stepNext x).op).drop (s.stepNext x).stepIdx.toNat = y :: ys := by
      have := congrArg List.tail hleft
      simpa [State.stepNext, toNat_succ_of_prog hnext] using this
    have hrest := ih (s := s.stepNext x) (by simpa [State.stepNext] using hw) (stepEnd_tx s x) hleft' (by simpa using hlast)
    have hcompleted : (s.stepNext x).completed c = s.completed c := by cases x <;> rfl
    have hhdr : (s.stepNext x).hdr = s.hdr := stepEnd_hdr s x
    have hparams : (s.stepNext x).params = s.params := stepEnd_params s x
    rw [hcompleted, hhdr, hparams] at hrest
    exact Emits.append_wave (emits_step hw htx (leads_stepNext hw hnext)) hrest

/-- A command from its acceptance. -/
theorem emits_command {cmd : Selector} (hw : s.params.wf = true) (hcmd : cmd.toNat ≤ 5) (rid : RemoteId) (ch : ChannelPort)
    (hfirst : (prog cmd)[0]? = some (.send c)) :
    (startFrame (loadSend c (latchRequest cmd rid ch s))).Emits
      (wave s.params.ticksPerUs (commandTrace cmd (buildHeader s.params rid ch) s.params.repeatCount.toNat))
      ((latchRequest cmd rid ch s).completed (lastCode cmd)) := by
  have hlastStep : ∀ op : Selector, op.toNat ≤ 5 → (prog op).getLast? = some (.send (lastCode op)) := by decide
  obtain ⟨xs, hprog⟩ : ∃ xs, prog cmd = .send c :: xs := by
    cases hsteps : prog cmd with
    | nil => simp [hsteps] at hfirst
    | cons x xs => exact ⟨xs, by simpa [hsteps] using hfirst⟩
  have hlast := hlastStep cmd hcmd
  rw [commandTrace]
  rw [hprog] at hlast ⊢
  exact emits_steps (s := { latchRequest cmd rid ch s with tx := false }) hw rfl hprog hlast

/-! ## The registers that a command keeps -/

/-- A tick between two busy states is no reset and no completion. -/
theorem step_of_busy (hstep : step s = .next t) (hs : s.busy = true) (ht : t.busy = true) :
    t.done = s.done ∧ t.err = s.err ∧ t.hdr = s.hdr := by
  obtain ⟨-, hcase⟩ := step_cases hstep
  have hidle := (busy_iff.1 hs).1
  cases hcase.kind with
  | reset => cases ht
  | hold _ hb => exact absurd (hs.symm.trans hb) (by decide)
  | illegal _ hp | accept _ hp => exact absurd hp hidle
  | busy _ _ hhdr _ herr hdone =>
    have hiff : t.done = true ↔ s.done = true := by simpa [(busy_iff.1 ht).1] using hdone
    exact ⟨Bool.eq_iff_iff.2 hiff, herr, hhdr⟩

/-- Every state in which a stretch of a run shows something is busy, so these registers are those of its first state. -/
theorem Emits.kept {w : List Bool} (h : s.Emits w t) {j : Nat} (hj : j < w.length) (hr : s.NoReset j)
    (hrun : runTicks j s = .next u) (hb : u.busy = true) : u.done = s.done ∧ u.err = s.err ∧ u.hdr = s.hdr := by
  induction j generalizing u with
  | zero =>
    cases hrun
    exact ⟨rfl, rfl, rfl⟩
  | succ j ih =>
    have hj' : j < w.length := Nat.lt_of_succ_lt hj
    have hr' : s.NoReset j := noReset_take_le (Nat.le_succ j) hr
    obtain ⟨v, hrunv, -, hbv⟩ := (h s.inputs).1 j hr' hj'
    obtain ⟨hdone, herr, hhdr⟩ := step_of_busy ((runTicks_snoc hrunv).symm.trans hrun) hbv hb
    obtain ⟨hdonev, herrv, hhdrv⟩ := ih hj' hr' hrunv hbv
    exact ⟨hdone.trans hdonev, herr.trans herrv, hhdr.trans hhdrv⟩

/-! ## The run of a command -/

/-- A selector that names no command faults in `IDLE`. -/
theorem step_illegal {cmd : Selector} {rid : RemoteId} {ch : ChannelPort} (hw : s.params.wf = true) (hp : s.phase = .idle)
    (hreq : s.Requests cmd rid ch) (hc : 5 < cmd.toNat) : step s = .next (raiseIllegalCommand cmd s.consume) := by
  have hcase := TickCase.illegal (p := s.port) (s := s.consume) (by rw [hreq]) hp (by rw [hreq]) (by rwa [hreq])
  rw [step_of_case hw hcase, hreq]

/-- Settles O50: the tick of acceptance, and then the steps of the command in order. -/
theorem commandsPutTheirTraceOnThePin : Obligations.CommandsPutTheirTraceOnThePin := by
  refine ⟨fun s cmd rid ch hw hp hreq hc => ?_, fun s cmd rid ch hw hp hreq hc =>
    ⟨_, step_illegal hw hp hreq hc, rfl, rfl, rfl, rfl⟩⟩
  obtain ⟨c, hfirst, -⟩ := exec_request_legal cmd rid ch s hc
  have hstep := step_accept hw hp hreq hc hfirst
  have hemits := emits_command (s := s.consume) hw hc rid ch hfirst
  refine ⟨⟨_, runTicks_one hstep, rfl, rfl, rfl, rfl, rfl, rfl⟩, wave_length _ _, fun j hj hr => ?_, fun hr => ?_⟩
  · obtain ⟨-, hr'⟩ := noReset_succ hr
    obtain ⟨u, hrun, htx, hb⟩ := (hemits s.inputs.tail).1 j hr' hj
    exact ⟨u, (runTicks_succ hstep).trans hrun, htx, hb, Emits.kept hemits hj hr' hrun hb⟩
  · rw [runTicks_succ hstep, ← maskChannel_eq, ← List.drop_tail]
    exact (hemits s.inputs.tail).2 (noReset_succ hr).2

end Sys2Proof.Machine
end

section
/-!
PROOF. The tick at which a gesture is accepted (44_gestures.md rules R125 to R127, 70_reset_and_hazards.md rule R166).
-/

namespace Sys2Proof.Machine

/-- Settles O23: a gesture is the issue of its selector with the code of its first step, `LEARN`. -/
theorem gesturesAreAccepted : Obligations.GesturesAreAccepted := fun _ rid ch hp =>
  ⟨congrArg Host.Outcome.next (issueCommand_eq hp 4#3 codeLearn rid ch),
    congrArg Host.Outcome.next (issueCommand_eq hp 5#3 codeLearn rid ch)⟩

end Sys2Proof.Machine
end

section
/-!
PROOF. The traces of the two gestures, five steps each that differ in the code of the last, and the lengths of the six commands
(44_gestures.md rules R126, R127, 70_reset_and_hazards.md rule R179).
-/

namespace Sys2Proof.Machine

variable {op : Selector} {c : Code}

theorem commandTrace_gesture (hprog : prog op = gestureSteps c) (h : Header) (n : Nat) :
    commandTrace op h n = commandTrace 3#3 h n ++ low interpressUs ++ commandTrace 3#3 h n ++ low finalUs ++
      sendCommand h c n (needsConf c) := by
  rw [commandTrace_of_prog (op := 3#3) (c := codeLearn) rfl, commandTrace, hprog]
  simp [gestureSteps, stepsTrace, stepTrace, waitUs]

theorem dur_commandTrace_primary (hprog : prog op = [.send c]) (hneeds : needsConf c = false) (h : Header) (n : Nat) :
    dur (commandTrace op h n) = 50900 * n := by
  rw [commandTrace_of_prog hprog, hneeds, dur_sendCommand_primary, Nat.mul_comm]

theorem dur_commandTrace_confirm (hprog : prog op = [.send c]) (hneeds : needsConf c = true) (h : Header) (n : Nat) :
    dur (commandTrace op h n) = 101800 * n := by
  rw [commandTrace_of_prog hprog, hneeds, dur_sendCommand_confirm]
  omega

/-- Two LEARN sends, the two waits and a send with confirmation. -/
theorem dur_commandTrace_gesture (hprog : prog op = gestureSteps c) (hneeds : needsConf c = true) (h : Header) (n : Nat) :
    dur (commandTrace op h n) = 203600 * n + 120000 := by
  have hlearn : dur (commandTrace 3#3 h n) = 50900 * n := dur_commandTrace_primary (c := codeLearn) rfl rfl h n
  have hinterpress : dur (low interpressUs) = 20000 := rfl
  have hfinal : dur (low finalUs) = 100000 := rfl
  rw [commandTrace_gesture hprog, hneeds]
  simp only [dur_append, hlearn, hinterpress, hfinal, dur_sendCommand_confirm]
  omega

/-- Four passes; a wait has no edge of its own. -/
theorem risingEdges_commandTrace_gesture (hprog : prog op = gestureSteps c) (hneeds : needsConf c = true) (h : Header) (n : Nat) :
    risingEdges false (commandTrace op h n) = 164 * n := by
  rw [commandTrace_gesture hprog, hneeds, commandTrace_primary (op := 3#3) (c := codeLearn) rfl rfl]
  simp only [List.append_assoc, risingEdges_sendPass_append, risingEdges_low_append, risingEdges_sendCommand_confirm]
  omega

/-- Settles O21: `PAIR` and `CHDIR` are gestures that end in an UP and a DOWN send, and the other four commands are one send. -/
theorem gestureTracesAndLengths : Obligations.GestureTracesAndLengths := by
  have hpair : prog 4#3 = gestureSteps codeUp := rfl
  have hchdir : prog 5#3 = gestureSteps codeDown := rfl
  refine ⟨fun h n => ⟨?_, ?_, dur_commandTrace_confirm (c := codeUp) rfl rfl h n,
    dur_commandTrace_confirm (c := codeDown) rfl rfl h n, dur_commandTrace_primary (c := codeStop) rfl rfl h n,
    dur_commandTrace_primary (c := codeLearn) rfl rfl h n, dur_commandTrace_gesture hpair rfl h n,
    dur_commandTrace_gesture hchdir rfl h n⟩, fun h => ⟨dur_commandTrace_gesture hpair rfl h 6,
    dur_commandTrace_gesture hchdir rfl h 6, risingEdges_commandTrace_gesture hpair rfl h 6,
    risingEdges_commandTrace_gesture hchdir rfl h 6⟩⟩
  · rw [commandTrace_of_prog (op := 0#3) (c := codeUp) rfl]
    exact commandTrace_gesture hpair h n
  · rw [commandTrace_of_prog (op := 1#3) (c := codeDown) rfl]
    exact commandTrace_gesture hchdir h n

end Sys2Proof.Machine
end

section
/-!
PROOF. The low times between two transmissions (40_pulse_driver.md rule R86, 44_gestures.md rule R128, 70_reset_and_hazards.md rule
R174). Delays in a row are one delay of their sum, a delay after a frame merges with the low time of the frame's bit 0, and the sync
pulse after it starts high.
-/

namespace Sys2Proof.Machine

variable {f : Frame} {d n : Nat} {t r : Trace}

/-- Two segments of one level in a row are one segment of their sum. -/
theorem normCons_normCons (l : Bool) (d e : Nat) (t : Trace) :
    normCons (l, d) (normCons (l, e) t) = normCons (l, d + e) t := by
  rcases Nat.eq_zero_or_pos d with rfl | hd
  · simp [normCons]
  rcases Nat.eq_zero_or_pos e with rfl | he
  · simp [normCons]
  match t with
  | [] => simp [normCons, Nat.ne_of_gt hd, Nat.ne_of_gt he]
  | (m, k) :: r =>
    by_cases hlm : l = m
    · subst hlm
      rw [normCons_of_eq he, normCons_of_eq hd, normCons_of_eq (Nat.add_pos_left hd e), Nat.add_assoc]
    · rw [normCons_of_ne he hlm, normCons_of_eq hd, normCons_of_ne (Nat.add_pos_left hd e) hlm]

/-- On the pin two delays in a row are one. -/
theorem normTrace_low_low (t u : Trace) (d e : Nat) :
    normTrace (t ++ low d ++ low e ++ u) = normTrace (t ++ low (d + e) ++ u) := by
  simp only [normTrace, low, List.foldr_append, List.foldr_cons, List.foldr_nil, normCons_normCons]

/-- What follows the lowest bits low merges with the low time of bit 0; all before it stays. -/
theorem normTrace_bitsTrace_append_low (ht : normTrace t = (false, d) :: r) (n : Nat) :
    normTrace (bitsTrace f (n + 1) ++ t) =
      (bitsTrace f (n + 1)).dropLast ++ (false, bitLoUs (f.getLsbD 0) + d) :: r := by
  induction n with
  | zero =>
    obtain ⟨hhi, hlo⟩ := bitUs_pos (f.getLsbD 0)
    exact (normTrace_pulse_append _ _ t).trans (by rw [ht, normCons_of_eq hlo, normCons_of_ne hhi (by decide)]; rfl)
  | succ n ih =>
    obtain ⟨hhi, hlo⟩ := bitUs_pos (f.getLsbD (n + 1))
    exact normTrace_pulse_append_high hhi hlo ih

theorem normTrace_transmitFrame_append_low (ht : normTrace t = (false, d) :: r) :
    normTrace (transmitFrame f ++ t) = (transmitFrame f).dropLast ++ (false, bitLoUs (f.getLsbD 0) + d) :: r :=
  normTrace_pulse_append_high (by decide) (by decide) (normTrace_bitsTrace_append_low ht 39)

/-- Between a delay and the transmission after it nothing merges. -/
theorem normTrace_low_transmitFrame (hn : 1 ≤ n) (g : Frame) :
    normTrace (low n ++ transmitFrame g) = (false, n) :: transmitFrame g := by
  rw [low, List.singleton_append, normTrace_cons, normTrace_transmitFrame]
  exact normCons_of_ne hn (by decide) _

theorem normTrace_transmitFrame_low_transmitFrame (f g : Frame) (hn : 1 ≤ n) :
    normTrace (transmitFrame f ++ low n ++ transmitFrame g) =
      (transmitFrame f).dropLast ++ [(false, bitLoUs (f.getLsbD 0) + n)] ++ transmitFrame g := by
  rw [List.append_assoc, normTrace_transmitFrame_append_low (normTrace_low_transmitFrame hn g), List.append_assoc,
    List.singleton_append]

theorem normTrace_transmitFrame_low_low_transmitFrame (f g : Frame) (hn : 1 ≤ n) (gap : Nat) :
    normTrace (transmitFrame f ++ low gap ++ low n ++ transmitFrame g) =
      (transmitFrame f).dropLast ++ [(false, bitLoUs (f.getLsbD 0) + gap + n)] ++ transmitFrame g := by
  rw [normTrace_low_low, normTrace_transmitFrame_low_transmitFrame f g (hn.trans (Nat.le_add_left n gap)), Nat.add_assoc]

/-- Settles O18: the delays after a frame add up to one; bit 0 of a LEARN frame is 0, so its low time is 620 microseconds. -/
theorem lowTimesBetweenTransmissions : Obligations.LowTimesBetweenTransmissions := by
  refine ⟨fun f g n hn => normTrace_transmitFrame_low_transmitFrame f g hn,
    fun f g n hn => normTrace_transmitFrame_low_low_transmitFrame f g hn 7400, fun h g => ?_⟩
  have hlow : bitLoUs ((buildFrame h 0xCC#8).getLsbD 0) = 620 := by
    rw [getLsbD_buildFrame]
    rfl
  rw [normTrace_transmitFrame_low_low_transmitFrame _ g (by decide), normTrace_transmitFrame_low_low_transmitFrame _ g (by decide),
    hlow]
  exact ⟨rfl, rfl⟩

end Sys2Proof.Machine
end

section
/-!
PROOF. What a request does where it is not accepted (60_exceptions.md rules R136 to R138, R142; notes/assumptions/8.md, 14.md).
-/

namespace Sys2Proof.Machine

variable {s : State}

theorem issueReserved_of_idle (hp : s.phase = .idle) (sel : Selector) : issueReserved sel s = raiseIllegalCommand sel s := if_pos hp

theorem issueReserved_of_ne (hp : s.phase ≠ .idle) (sel : Selector) : issueReserved sel s = s := if_neg hp

theorem issueCommand_of_ne (hp : s.phase ≠ .idle) (sel : Selector) (c : Code) (rid : RemoteId) (ch : ChannelPort) :
    issueCommand sel c rid ch s = s := if_neg hp

/-- Settles O24: a reserved selector raises the fault, which is the four writes. -/
theorem reservedSelectorsTakeTheFault : Obligations.ReservedSelectorsTakeTheFault := fun _ hp =>
  ⟨congrArg Host.Outcome.next (issueReserved_of_idle hp 6#3), congrArg Host.Outcome.next (issueReserved_of_idle hp 7#3)⟩

/-- Settles O25: each of the eight is the issue of its selector, which only `IDLE` takes. -/
theorem requestsOutsideIdleChangeNothing : Obligations.RequestsOutsideIdleChangeNothing := by
  intro s rid ch hp
  have hcommand (sel : Selector) (c : Code) :
      (.next (issueCommand sel c rid ch s) : Host.Outcome State Fault Refusal) = .next s :=
    congrArg _ (issueCommand_of_ne hp sel c rid ch)
  have hreserved (sel : Selector) : (.next (issueReserved sel s) : Host.Outcome State Fault Refusal) = .next s :=
    congrArg _ (issueReserved_of_ne hp sel)
  exact ⟨hcommand 0#3 codeUp, hcommand 1#3 codeDown, hcommand 2#3 codeStop, hcommand 3#3 codeLearn, hcommand 4#3 codeLearn,
    hcommand 5#3 codeLearn, hreserved 6#3, hreserved 7#3⟩

end Sys2Proof.Machine
end

section
/-!
PROOF. The ports are read at an acceptance tick and at no other (60_exceptions.md rule R142, 20_memory.md rule R48).
-/

namespace Sys2Proof.Machine

variable {p q : Ports} {s t : State}

/-- A tick at which no request is taken does not look at the ports. -/
theorem runTick_ports_irrelevant (h : s.phase ≠ .idle ∨ (p.start = false ∧ q.start = false)) : runTick p s = runTick q s := by
  by_cases hidle : s.phase = .idle
  · obtain ⟨hp, hq⟩ := h.resolve_left (not_not_intro hidle)
    rw [runTick_idle_hold p hidle hp, runTick_idle_hold q hidle hq]
  by_cases hfault : s.phase = .fault
  · rw [runTick_fault p hfault, runTick_fault q hfault]
  have hb : s.busy = true := busy_iff.2 ⟨hidle, hfault⟩
  by_cases ht : s.tmr = 0
  · rw [runTick_phaseEnd p hb ht, runTick_phaseEnd q hb ht]
  · rw [runTick_countDown p hb ht, runTick_countDown q hb ht]

theorem step_of_not_wf (hw : ¬ s.params.wf = true) : step s = .refused .notAnInstance := if_neg hw

/-- So two states that differ in the ports of the present tick alone have the same step. -/
theorem step_ports_irrelevant (hst : s.consume = t.consume) (hs : s.port.rst = false) (ht : t.port.rst = false)
    (h : s.phase ≠ .idle ∨ (s.port.start = false ∧ t.port.start = false)) : step s = step t := by
  have hparams : s.params = t.params := by rw [← consume_params s, hst, consume_params]
  by_cases hw : s.params.wf = true
  · rw [step_of_wf hw, step_of_wf (hparams ▸ hw), tick_run hs, tick_run ht, ← hst]
    exact runTick_ports_irrelevant h
  · rw [step_of_not_wf hw, step_of_not_wf (hparams ▸ hw)]

/-- Settles O42: the two steps differ in the ports of one tick that takes no request; and `ERR` is set at an acceptance tick only. -/
theorem portsAreReadOnlyAtAcceptance : Obligations.PortsAreReadOnlyAtAcceptance := by
  refine ⟨fun s p q ins hp hq h => step_ports_irrelevant rfl hp hq h, fun s t hb hr hstep => ?_⟩
  obtain ⟨herr, -⟩ := statusFlagsRules.1 s t hstep
  exact Bool.eq_iff_iff.2 (by simpa [hr, (busy_iff.1 hb).1] using herr)

end Sys2Proof.Machine
end

section
/-!
PROOF. The events of one tick in the order of 60_exceptions.md rule R144.
-/

namespace Sys2Proof.Machine

variable {p : Ports} {s t : State}

theorem step_reset (hw : s.params.wf = true) (hr : s.port.rst = true) :
    step s = .next (State.resetOf s.params s.inputs.tail) :=
  step_of_case hw (.reset hr)

theorem step_faultHold (hw : s.params.wf = true) (hr : s.port.rst = false) (hp : s.phase = .fault) :
    step s = .next s.consume :=
  step_of_case hw (.faultHold hr hp)

/-- No step table has two WAIT steps in a row. -/
theorem State.Inv.not_wait_of_nextWait (h : s.Inv) {w : WaitKind}
    (hn : (prog s.op)[s.stepIdx.toNat + 1]? = some (.wait w)) : s.phase ≠ .wait := by
  intro hp
  obtain ⟨hsend, -⟩ := prog_before_wait hn
  obtain ⟨⟨w', hwait⟩, -⟩ := (stepAgrees_wait hp).1 (h.step_agrees (busy_iff.2 (by simp [hp])))
  simp [hwait] at hsend

/-- The end of a phase leads to another phase. -/
theorem TickCase.phase_ne (hc : TickCase p s t) (h : s.Inv) (hr : p.rst = false) (hb : s.busy = true) (htmr : s.tmr = 0) :
    t.phase ≠ s.phase := by
  obtain ⟨hidle, hfault⟩ := busy_iff.1 hb
  cases hc with
  | reset hrst => simp [hr] at hrst
  | faultHold _ hp => exact absurd hp hfault
  | idleHold _ hp | illegal _ hp | accept _ hp => exact absurd hp hidle
  | countDown _ _ ht => exact absurd htmr ht
  | syncLow _ hp | firstBit _ hp | bitLow _ hp | nextBit _ hp | gap _ hp | again _ hp | confirm _ hp => simp [hp]
  | complete => exact hidle.symm
  | nextSend _ _ hp => rcases hp with hp | ⟨hp, -⟩ <;> simp [hp]
  | nextWait _ _ _ w hn => exact (h.not_wait_of_nextWait hn).symm

/-- Settles O35: each event is one case of a tick. -/
theorem eventsAreResolvedInOrder : Obligations.EventsAreResolvedInOrder := by
  intro s hw
  refine ⟨step_reset hw, step_faultHold hw, fun hr hp hs hc => ?_, fun hr hp hs hc => ?_, fun hr hp hs => ?_, fun hr hb =>
    ⟨fun ht => step_countDown hw hb ht hr, fun t ht hinv hstep => ?_, fun q hq => ?_⟩⟩
  · exact step_of_case hw (.illegal hr hp hs hc)
  · obtain ⟨c, hfirst, -⟩ := exec_request_legal s.port.cmd s.port.remoteId s.port.channel s.consume hc
    exact ⟨_, step_of_case hw (.accept (s := s.consume) hr hp hs hc c hfirst), rfl, rfl, rfl, rfl, rfl⟩
  · exact step_of_case hw (.idleHold hr hp hs)
  · obtain ⟨-, hcase⟩ := step_cases hstep
    exact hcase.phase_ne hinv.consume hr hb ht
  · exact step_ports_irrelevant rfl hq hr (.inl (busy_iff.1 hb).1)

end Sys2Proof.Machine
end

section
/-!
PROOF. A block that has faulted stays as it is (60_exceptions.md rules R136 to R138).
-/

namespace Sys2Proof.Machine

variable {s : State}

theorem runTicks_fault {k : Nat} (hw : s.params.wf = true) (hp : s.phase = .fault) (hr : s.NoReset k) :
    runTicks k s = .next { s with inputs := s.inputs.drop k } := by
  induction k generalizing s with
  | zero => rfl
  | succ k ih =>
    obtain ⟨hnow, hlater⟩ := noReset_succ hr
    rw [runTicks_succ (step_faultHold hw hnow hp), ih (s := s.consume) hw hp hlater, consume_inputs, List.drop_tail]
    rfl

/-- Settles O38: the tick of the fault, and then the ticks that hold it; the pin was low before. -/
theorem illegalSelectorStopsTheBlock : Obligations.IllegalSelectorStopsTheBlock := by
  intro s cmd rid ch k hw hp hreq hc hr
  have hrun : runTicks (k + 1) s = .next { raiseIllegalCommand cmd s with inputs := s.inputs.drop (k + 1) } := by
    obtain ⟨-, hlater⟩ := noReset_succ hr
    rw [runTicks_succ (step_illegal hw hp hreq hc), runTicks_fault (s := raiseIllegalCommand cmd s.consume) hw rfl hlater,
      raiseIllegalCommand_inputs, consume_inputs, List.drop_tail]
    rfl
  refine ⟨hrun, fun hinv => ⟨_, hrun, ?_, rfl⟩⟩
  obtain ⟨-, htx⟩ := hinv.rest (.inl hp)
  simp [State.outputs, State.busy, htx]

end Sys2Proof.Machine
end

section
/-!
PROOF. A reset while a command is in progress (60_exceptions.md rule R141, 70_reset_and_hazards.md rule R162): the block shows the
command's wave until the tick of the reset, which it takes in whatever state it is then.
-/

namespace Sys2Proof.Machine

variable {s u : State}

/-- A run keeps the parameters and moves the port list on by its ticks. -/
theorem runTicks_params_inputs {k : Nat} (h : runTicks k s = .next u) : u.params = s.params ∧ u.inputs = s.inputs.drop k := by
  induction k generalizing s with
  | zero =>
    cases h
    exact ⟨rfl, rfl⟩
  | succ k ih =>
    rw [runTicks_unfold] at h
    split at h
    next t hstep =>
      obtain ⟨hparams, hinputs⟩ := stepKeepsTheParameters s t hstep
      obtain ⟨hparams', hinputs'⟩ := ih h
      exact ⟨hparams'.trans hparams, by rw [hinputs', hinputs, List.drop_tail]⟩
    all_goals cases h

/-- A reset `k` ticks on, from whatever state the block is in by then. -/
theorem runTicks_reset {k : Nat} {p : Ports} (hw : s.params.wf = true) (hrun : runTicks k s = .next u)
    (hp : s.inputs[k]? = some p) (hr : p.rst = true) :
    runTicks (k + 1) s = .next (State.resetOf s.params (s.inputs.drop (k + 1))) := by
  obtain ⟨hparams, hinputs⟩ := runTicks_params_inputs hrun
  have hport : u.port = p := by
    rw [State.port, hinputs, List.headD_eq_head?_getD, List.head?_drop, hp, Option.getD_some]
  rw [runTicks_snoc hrun, step_reset (hparams ▸ hw) (hport ▸ hr), hparams, hinputs, List.tail_drop]

/-- Settles O51: up to the reset the run is that of the whole command. -/
theorem resetCutsACommandShort : Obligations.ResetCutsACommandShort := by
  intro s cmd rid ch k p hw hp hreq hc hk hport hrst hr w hkw
  obtain ⟨-, -, hwave, -⟩ := commandsPutTheirTraceOnThePin.1 s cmd rid ch hw hp hreq hc
  have hshown (j : Nat) (hj : j < w.length) (hjk : j < k) : ∃ u, runTicks (j + 1) s = .next u ∧ u.tx = w[j] ∧ u.busy = true := by
    obtain ⟨u, hrun, htx, hb, -⟩ := hwave j hj (noReset_take_le hjk hr)
    exact ⟨u, hrun, htx, hb⟩
  obtain ⟨j, rfl⟩ := Nat.exists_eq_add_of_le' hk
  obtain ⟨u, hrun, -⟩ := hshown j hkw (Nat.lt_succ_self j)
  exact ⟨hshown, runTicks_reset hw hrun hport hrst⟩

end Sys2Proof.Machine
end

section
/-!
PROOF. What an element may write (10_state.md sections 2 to 4; notes/assumptions/4.md, 7.md, 8.md, 13.md, 14.md, 18.md).
-/

namespace Sys2Proof.Machine

/-- From `s` to `t` a request has written no more than any request may: all but `BITIDX`, the parameters and the ports. -/
def RequestWrites (s t : State) : Prop :=
  t = { s with
    op := t.op, hdrRid := t.hdrRid, hdrCh := t.hdrCh, done := t.done, stepIdx := t.stepIdx, code := t.code, conf := t.conf,
    pass := t.pass, rep := t.rep, tx := t.tx, phase := t.phase, tmr := t.tmr, err := t.err }

theorem issueCommand_writes (sel : Selector) (c : Code) (rid : RemoteId) (ch : ChannelPort) (s : State) :
    RequestWrites s (issueCommand sel c rid ch s) ∧ (issueCommand sel c rid ch s).err = s.err := by
  by_cases hp : s.phase = .idle
  · rw [issueCommand_eq hp]
    exact ⟨rfl, rfl⟩
  · rw [issueCommand_of_ne hp]
    exact ⟨rfl, rfl⟩

theorem issueReserved_writes (sel : Selector) (s : State) :
    RequestWrites s (issueReserved sel s) ∧
      let t := issueReserved sel s
      t = { s with op := t.op, done := t.done, phase := t.phase, err := t.err } := by
  by_cases hp : s.phase = .idle
  · rw [issueReserved_of_idle hp]
    exact ⟨rfl, rfl⟩
  · rw [issueReserved_of_ne hp]
    exact ⟨rfl, rfl⟩

/-- Settles O30: a request writes what its issue writes, and the other elements make the same writes in every state. -/
theorem elementsWriteOnlyTheirRegisters : Obligations.ElementsWriteOnlyTheirRegisters := by
  intro i s
  cases i with
  | up rid ch | down rid ch | stop rid ch | learn rid ch | pair rid ch | chdir rid ch =>
    exact ⟨_, rfl, (issueCommand_writes _ _ rid ch s).1, fun _ _ => (issueCommand_writes _ _ rid ch s).2, by simp⟩
  | reserved6 | reserved7 =>
    exact ⟨_, rfl, (issueReserved_writes _ s).1, by simp, fun _ => (issueReserved_writes _ s).2⟩
  | frameUpPrimary | frameUpConfirm | frameDownPrimary | frameDownConfirm | frameStop | frameLearn => exact ⟨_, rfl, rfl⟩
  | sync | bit0 | bit1 | gap | waitInterpress | waitFinal => exact ⟨_, rfl, rfl⟩

theorem exec_answers (i : Instr) (s : State) : ∃ t, exec i s = .next t := by
  obtain ⟨t, ht, -⟩ := elementsWriteOnlyTheirRegisters i s
  exact ⟨t, ht⟩

end Sys2Proof.Machine
end

section
/-!
PROOF. The step is the spec's step function (70_reset_and_hazards.md rules R165, R166), and it stops only where that function, or the
block itself, does not exist (notes/assumptions/9.md, 10.md).
-/

namespace Sys2Proof.Machine

variable {p : Ports} {s : State}

/-! ## The parts of rule R166 are the operations of the machine -/

theorem ruleStartFrame_eq (s : State) : ruleStartFrame s = startFrame s := rfl

theorem ruleBeginStep_send {op : Selector} {i : Nat} {c : Code} (h : (prog op)[i]? = some (.send c)) (r : State) :
    ruleBeginStep op i r = some (startFrame (loadSend c r)) := by
  have hconf : (if c = 0x11#8 ∨ c = 0x33#8 then true else false) = needsConf c := by
    rw [needsConf, codeUp, codeDown, Bool.eq_iff_iff]
    simp
  simp only [ruleBeginStep, h, hconf, ruleStartFrame_eq]
  rfl

theorem ruleBeginStep_wait {op : Selector} {i : Nat} {w : WaitKind} (h : (prog op)[i]? = some (.wait w)) (r : State) :
    ruleBeginStep op i r = some (startDelay .wait (waitUs w) r) := by
  cases w <;> simp only [ruleBeginStep, h] <;> rfl

theorem ruleBeginStep_none {op : Selector} {i : Nat} (h : (prog op)[i]? = none) (r : State) : ruleBeginStep op i r = none := by
  simp only [ruleBeginStep, h]

/-- The index of the last step is that before the end of a table that has steps. -/
theorem lastStep_iff (op : Selector) (i : Nat) : prog op ≠ [] ∧ i = lastStep op ↔ i + 1 = (prog op).length := by
  rw [lastStep, ← List.length_pos_iff]
  omega

/-- What the machine answers where the spec's step function gives `r`: that state, or where it gives none the machine's fault. -/
def outcomeOfRule (r : Option State) : Host.Outcome State Fault Refusal :=
  match r with
  | some t => .next t
  | none => .fault .stepTableOverrun

@[simp] theorem outcomeOfRule_some (t : State) : outcomeOfRule (some t) = .next t := rfl
@[simp] theorem outcomeOfRule_none : outcomeOfRule none = .fault .stepTableOverrun := rfl

theorem outcomeOfRule_eq_next {r : Option State} {t : State} : outcomeOfRule r = .next t ↔ r = some t := by
  cases r <;> simp

theorem outcomeOfRule_eq_fault {r : Option State} : outcomeOfRule r = .fault .stepTableOverrun ↔ r = none := by
  cases r <;> simp

theorem outcomeOfRule_ne_refused (r : Option State) (reason : Refusal) : outcomeOfRule r ≠ .refused reason := by
  cases r <;> simp

theorem advanceOutcome_eq_rule (s : State) : advanceOutcome s = outcomeOfRule (ruleAdvance s) := by
  unfold advanceOutcome ruleAdvance
  simp only [lastStep_iff]
  split
  · rfl
  · split
    next h => rw [ruleBeginStep_none h, outcomeOfRule_none]
    next c h => rw [ruleBeginStep_send h, outcomeOfRule_some]
    next w h => rw [ruleBeginStep_wait h, outcomeOfRule_some]

/-! ## The tick, phase by phase -/

theorem ruleStep_reset (hr : p.rst = true) (s : State) : ruleStep p s = some (applyReset s) := if_pos hr

theorem ruleStep_countDown (hr : p.rst = false) (hb : s.busy = true) (ht : s.tmr ≠ 0) : ruleStep p s = some (countDown s) := by
  obtain ⟨hidle, hfault⟩ := busy_iff.1 hb
  cases hp : s.phase with
  | idle => exact absurd hp hidle
  | fault => exact absurd hp hfault
  | _ => simp [ruleStep, hr, hp, ht, countDown]

theorem runTick_idle_eq_rule (hr : p.rst = false) (hp : s.phase = .idle) : runTick p s = outcomeOfRule (ruleStep p s) := by
  cases hs : p.start with
  | false =>
    rw [runTick_idle_hold p hp hs]
    simp [ruleStep, hr, hp, hs]
  | true =>
    rw [runTick_idle_start p hp hs, Ports.word]
    by_cases hc : 5 < p.cmd.toNat
    · rw [exec_request_illegal _ _ _ _ hc, issueReserved, if_pos hp]
      simp [ruleStep, hr, hp, hs, hc, raiseIllegalCommand]
    · obtain ⟨c, hfirst, he⟩ := exec_request_legal p.cmd p.remoteId p.channel s (Nat.not_lt.1 hc)
      rw [he, issueCommand, if_pos hp]
      simp [ruleStep, hr, hp, hs, hc, ruleBeginStep_send hfirst, latchRequest, maskChannel]

/-- A tick without reset is that of the spec's step function. -/
theorem runTick_eq_rule (hr : p.rst = false) (s : State) : runTick p s = outcomeOfRule (ruleStep p s) := by
  have busyCase (hb : s.busy = true) (hend : s.tmr = 0 → runTick p s = outcomeOfRule (ruleStep p s)) :
      runTick p s = outcomeOfRule (ruleStep p s) := by
    by_cases ht : s.tmr = 0
    · exact hend ht
    · rw [runTick_countDown p hb ht, ruleStep_countDown hr hb ht, outcomeOfRule_some]
  cases hp : s.phase with
  | idle => exact runTick_idle_eq_rule hr hp
  | fault =>
    rw [runTick_fault p hp]
    simp [ruleStep, hr, hp]
  | syncHi =>
    refine busyCase (by simp [busy_iff, hp]) fun ht => ?_
    rw [runTick_syncHi p hp ht]
    simp [ruleStep, hr, hp, ht, syncLow, enterPhase, pinWrite, syncLoUs]
  | syncLo =>
    refine busyCase (by simp [busy_iff, hp]) fun ht => ?_
    rw [runTick_syncLo p hp ht]
    simp only [ruleStep, hr, hp, ht]
    rfl
  | bitHi =>
    refine busyCase (by simp [busy_iff, hp]) fun ht => ?_
    rw [runTick_bitHi p hp ht]
    simp only [ruleStep, hr, hp, ht]
    rfl
  | bitLo =>
    refine busyCase (by simp [busy_iff, hp]) fun ht => ?_
    by_cases hb : s.bitIdx = 0#6
    · rw [runTick_bitLo_last p hp ht hb]
      simp [ruleStep, hr, hp, ht, hb, startDelay, enterPhase, gapUs]
    · rw [runTick_bitLo_next p hp ht hb]
      simp only [ruleStep, hr, hp, ht, if_pos hb]
      rfl
  | gap =>
    refine busyCase (by simp [busy_iff, hp]) fun ht => ?_
    by_cases hrep : s.rep = 1#4
    · by_cases hc : s.pass = false ∧ s.conf = true
      · rw [runTick_gap_confirm p hp ht hrep hc]
        simp [ruleStep, hr, hp, ht, hrep, hc, ruleStartFrame_eq, beginConfirmPass]
      · rw [runTick_gap_advance p hp ht hrep hc, advanceOutcome_eq_rule]
        simp [ruleStep, hr, hp, ht, hrep, if_neg hc]
    · rw [runTick_gap_again p hp ht hrep]
      simp [ruleStep, hr, hp, ht, hrep, ruleStartFrame_eq]
  | wait =>
    refine busyCase (by simp [busy_iff, hp]) fun ht => ?_
    rw [runTick_wait p hp ht, advanceOutcome_eq_rule]
    simp [ruleStep, hr, hp, ht]

theorem step_eq_rule (hw : s.params.wf = true) : step s = outcomeOfRule (ruleStep s.port s.consume) := by
  rw [step_of_wf hw]
  cases hr : s.port.rst with
  | true => rw [tick_reset hr, ruleStep_reset hr, outcomeOfRule_some]
  | false => rw [tick_run hr, runTick_eq_rule hr]

/-! ## Where it stops -/

theorem refused_iff_not_wf : step s = .refused .notAnInstance ↔ s.params.wf = false := by
  cases hw : s.params.wf with
  | true => simp [step_eq_rule hw, outcomeOfRule_ne_refused]
  | false => simp [step_of_not_wf, hw]

/-- Settles O34: with parameters in range the step stops where the spec's step function gives no state, and elsewhere it is refused. -/
theorem stepStopsOnlyOutsideTheTables : Obligations.StepStopsOnlyOutsideTheTables := by
  intro s
  refine ⟨refused_iff_not_wf, ?_⟩
  by_cases hw : s.params.wf = true
  · rw [step_eq_rule hw, outcomeOfRule_eq_fault]
    exact ⟨fun m => outcomeOfRule_ne_refused _ _, by simp [hw]⟩
  · rw [step_of_not_wf hw]
    simp [hw]

/-- A step of a command has a next step, or the table is at its end. -/
theorem State.Inv.advance_ne_overrun (h : s.Inv) (hb : s.busy = true) : advance s ≠ .overrun := by
  obtain ⟨⟨x, hx⟩, -⟩ := h.current_step hb
  have hlt := (List.getElem?_eq_some_iff.1 hx).1
  unfold advance
  split
  · nofun
  next hlast =>
    rw [List.getElem?_eq_getElem (show s.stepIdx.toNat + 1 < (prog s.op).length by omega)]
    split
    next hnone => cases hnone
    all_goals nofun

theorem State.Inv.phaseEnd_ne_overrun (h : s.Inv) (hb : s.busy = true) : phaseEnd s ≠ .overrun := by
  cases hp : s.phase with
  | bitLo =>
    simp only [phaseEnd, hp, bitPulse]
    split <;> nofun
  | gap =>
    simp only [phaseEnd, hp, gapEnd]
    split
    · nofun
    · split
      · nofun
      · exact h.advance_ne_overrun hb
  | wait =>
    simp only [phaseEnd, hp]
    exact h.advance_ne_overrun hb
  | _ => simp [phaseEnd, hp, bitPulse]

theorem runBoundary_answers {b : Boundary} (h : b ≠ .overrun) : ∃ t, runBoundary b = .next t := by
  cases b with
  | begins i r => exact exec_answers i r
  | within r => exact ⟨r, rfl⟩
  | overrun => exact absurd rfl h

theorem State.Inv.runTick_answers (h : s.Inv) (p : Ports) : ∃ t, runTick p s = .next t := by
  by_cases hidle : s.phase = .idle
  · cases hs : p.start with
    | false => exact ⟨s, runTick_idle_hold p hidle hs⟩
    | true => exact runTick_idle_start p hidle hs ▸ exec_answers _ s
  by_cases hfault : s.phase = .fault
  · exact ⟨s, runTick_fault p hfault⟩
  have hb : s.busy = true := busy_iff.2 ⟨hidle, hfault⟩
  by_cases ht : s.tmr = 0
  · exact runTick_phaseEnd p hb ht ▸ runBoundary_answers (h.phaseEnd_ne_overrun hb)
  · exact ⟨_, runTick_countDown p hb ht⟩

/-- Settles O46: every element answers, and the end of a step finds the next one in the table or is that of the command. -/
theorem reachableStatesNeverStop : Obligations.ReachableStatesNeverStop := by
  intro s h
  rw [step_of_wf h.params_wf]
  cases hr : s.port.rst with
  | true => exact ⟨_, tick_reset hr⟩
  | false => exact tick_run hr ▸ h.consume.runTick_answers s.port

/-- Settles O33: with parameters in range the two functions agree, and under the invariant the step answers. -/
theorem stepIsRuleR166 : Obligations.StepIsRuleR166 := by
  intro s hw
  have hnext (t : State) : step s = .next t ↔ ruleStep s.port s.consume = some t := by
    rw [step_eq_rule hw, outcomeOfRule_eq_next]
  refine ⟨fun t => (hnext t).2, fun h => ?_⟩
  obtain ⟨t, hstep⟩ := reachableStatesNeverStop s h
  exact ⟨t, (hnext t).1 hstep⟩

end Sys2Proof.Machine
end

section
/-!
PROOF. A tick at which an element begins runs that element (70_reset_and_hazards.md rules R164, R166): one lemma for each way a step
begins one, from which the elements placed by hand (notes/assumptions/3.md) run too.
-/

namespace Sys2Proof.Machine

variable {s : State} {i : Instr}

/-- In `IDLE` with `start` the request on the ports. -/
theorem step_request (hw : s.params.wf = true) (hr : s.port.rst = false) (hp : s.phase = .idle) (hs : s.port.start = true) :
    step s = exec (decodeCommand s.port.word) s.consume := by
  rw [step_of_wf hw, tick_run hr, runTick_idle_start (s := s.consume) _ hp hs]

/-- After a bit pulse but the last the symbol of the next lower bit. -/
theorem step_nextBit (hw : s.params.wf = true) (hr : s.port.rst = false) (ht : s.tmr = 0) (hp : s.phase = .bitLo)
    (hb : s.bitIdx ≠ 0#6) :
    step s = exec (decodeBit (frameBitAt s.frame (s.bitIdx.toNat - 1))) { s.consume with bitIdx := s.bitIdx - 1#6 } :=
  (step_of_case hw (.nextBit hr hp ht hb)).trans (exec_decodeBit ..).symm

/-- After bit 0 the gap. -/
theorem step_gapBegins (hw : s.params.wf = true) (hr : s.port.rst = false) (ht : s.tmr = 0) (hp : s.phase = .bitLo)
    (hb : s.bitIdx = 0#6) : step s = exec .gap s.consume :=
  (step_of_case hw (.gap hr hp ht hb)).trans (exec_gap _).symm

/-- The element that `FRAME` decodes to begins the transmission, where `CODE` is primary. -/
theorem exec_decodedFrame (hcode : s.code ∈ [codeUp, codeDown, codeStop, codeLearn]) (hi : decode .frame s.frame.toNat = .ok i) :
    exec i s = .next (startFrame s) := by
  have hprimary : s.code = codeUp ∨ s.code = codeDown ∨ s.code = codeStop ∨ s.code = codeLearn := by simpa using hcode
  rw [decode_frame_toNat] at hi
  have helement : transmission s = i := by simp only [transmission, hi, if_pos hprimary]
  rw [← helement, exec_transmission]

/-- In a pass with transmissions left the frame in `FRAME`. -/
theorem step_again (hw : s.params.wf = true) (hr : s.port.rst = false) (ht : s.tmr = 0) (hp : s.phase = .gap)
    (hrep : s.rep ≠ 1#4) (hcode : s.code ∈ [codeUp, codeDown, codeStop, codeLearn]) (hi : decode .frame s.frame.toNat = .ok i) :
    step s = exec i { s.consume with rep := decRep s.rep } :=
  (step_of_case hw (.again hr hp ht hrep)).trans
    (exec_decodedFrame (s := { s.consume with rep := decRep s.rep }) hcode hi).symm

theorem frame_beginConfirmPass (hpass : s.pass = false) : (beginConfirmPass s).frame = confirm s.frame := by
  simp [State.frame, State.codeEff, hpass, confirm_buildFrame, State.hdr]

/-- After a primary pass the confirmation frame, where there is one. -/
theorem step_confirm (hw : s.params.wf = true) (hr : s.port.rst = false) (ht : s.tmr = 0) (hp : s.phase = .gap)
    (hrep : s.rep = 1#4) (hpass : s.pass = false) (hconf : s.conf = true)
    (hcode : s.code ∈ [codeUp, codeDown, codeStop, codeLearn]) (hi : decode .frame (confirm s.frame).toNat = .ok i) :
    step s = exec i (beginConfirmPass s.consume) := by
  rw [← frame_beginConfirmPass hpass] at hi
  exact (step_of_case hw (.confirm hr hp ht hrep ⟨hpass, hconf⟩)).trans
    (exec_decodedFrame (s := beginConfirmPass s.consume) hcode hi).symm

/-- The tick ends a step of a command: a wait, or the last gap of the last pass of a send. -/
def State.EndsStep (s : State) : Prop :=
  s.phase = .wait ∨ (s.phase = .gap ∧ s.rep = 1#4 ∧ ¬ (s.pass = false ∧ s.conf = true))

/-- At the end of a step the frame of the next send, composed with its code. -/
theorem step_nextSend (hw : s.params.wf = true) (hr : s.port.rst = false) (ht : s.tmr = 0) (hp : s.EndsStep) {c : Code}
    (hn : (prog s.op)[s.stepIdx.toNat + 1]? = some (.send c)) :
    ∃ i, decode .frame (buildFrame s.hdr c).toNat = .ok i ∧
      step s = exec i (loadSend c { s.consume with stepIdx := s.stepIdx + 1#3 }) := by
  have hcode := primary_of_prog_send hn
  have hsent : c ∈ frameCodes := by
    simp only [List.mem_cons, List.not_mem_nil, or_false] at hcode
    rcases hcode with rfl | rfl | rfl | rfl <;> simp [frameCodes]
  obtain ⟨i, hi⟩ := exists_decode_frame (frameRsv_buildFrame s.hdr c) (frameCode_frameWord .. ▸ hsent)
  exact ⟨i, hi, (step_of_case hw (.nextSend (s := s.consume) hr ht hp c hn)).trans
    (exec_decodedFrame (s := loadSend c { s.consume with stepIdx := s.stepIdx + 1#3 }) hcode hi).symm⟩

/-- At the end of a step the next wait. -/
theorem step_nextWait (hw : s.params.wf = true) (hr : s.port.rst = false) (ht : s.tmr = 0) (hp : s.EndsStep) {w : WaitKind}
    (hn : (prog s.op)[s.stepIdx.toNat + 1]? = some (.wait w)) :
    step s = exec (waitElement w) { s.consume with stepIdx := s.stepIdx + 1#3 } :=
  (step_of_case hw (.nextWait (s := s.consume) hr ht hp w hn)).trans (exec_waitElement ..).symm

/-- Settles O31: each clause is one way a step begins an element; that after the sync pulse is the start of bit 39. -/
theorem stepRunsTheDecodedElement : Obligations.StepRunsTheDecodedElement := by
  intro s hw hr
  refine ⟨step_request hw hr, fun ht => ⟨fun hp => ?_, step_nextBit hw hr ht, step_gapBegins hw hr ht, fun _ => step_again hw hr ht,
    fun _ => step_confirm hw hr ht, fun hp => ?_⟩⟩
  · exact (step_of_case hw (.firstBit hr hp ht)).trans (exec_decodeBit ..).symm
  · have hend : s.EndsStep := hp.imp_right fun ⟨hgap, hrep, hover⟩ => ⟨hgap, hrep, by
      rcases hover with hover | hover <;> simp [hover]⟩
    exact ⟨fun _ => step_nextSend hw hr ht hend, step_nextWait hw hr ht hend, step_nextWait hw hr ht hend⟩

/-! ## Placed elements -/

theorem step_withRequest (hw : s.params.wf = true) (cmd : Selector) (rid : RemoteId) (ch : ChannelPort) :
    step (s.withRequest cmd rid ch) = exec (decodeCommand (requestWord cmd rid ch)) (s.withRequest cmd rid ch).consume :=
  step_request (s := s.withRequest cmd rid ch) hw rfl rfl rfl

/-- The one transmission that is left after the placed gap. -/
theorem decRep_two : decRep 2#4 = 1#4 := decRep_of_ne (by decide)

theorem step_beforeFrame (hw : s.params.wf = true) {p : PrefixBits} {rid : RemoteId} {ch : Channel} {c : Code} {pass : Bool}
    (hcode : c ∈ [codeUp, codeDown, codeStop, codeLearn])
    (hi : decode .frame (frameWord p rid ch (if pass then confirmCode c else c)).toNat = .ok i) :
    step (s.beforeFrame p rid ch c pass) = exec i { (s.beforeFrame p rid ch c pass).consume with rep := 1#4 } := by
  rw [← decRep_two]
  exact step_again (s := s.beforeFrame p rid ch c pass) hw rfl rfl rfl (show 2#4 ≠ 1#4 by decide) hcode hi

/-- Where `CODE` is no primary code the transmission that begins is its sync symbol. -/
theorem step_beforeSync (hw : s.params.wf = true) :
    step (placeElement .sync s) = exec .sync { (placeElement .sync s).consume with rep := 1#4 } := by
  rw [← decRep_two, exec_sync]
  exact step_of_case (s := placeElement .sync s) hw (.again rfl rfl rfl (show 2#4 ≠ 1#4 by decide))

theorem step_beforeBit (hw : s.params.wf = true) (b : Bool) :
    step (s.beforeBit b) = exec (decodeBit b) { (s.beforeBit b).consume with bitIdx := 16#6 } := by
  have hlow : ∀ b : Bool, (if b then 1#16 else 0#16).getLsbD 0 = b := by decide
  have hbit : frameBitAt (s.beforeBit b).frame 16 = b := by
    rw [frameBitAt_of_lt (by decide), frame_eq_frameWord, frameWord_getLsbD_rid _ _ _ _ 0 (by decide)]
    exact hlow b
  have hstep := step_nextBit (s := s.beforeBit b) hw rfl rfl rfl (show 17#6 ≠ 0#6 by decide)
  have hidx : (s.beforeBit b).bitIdx = 17#6 := rfl
  rw [hidx, show (17#6).toNat - 1 = 16 from rfl, show 17#6 - 1#6 = 16#6 from rfl, hbit] at hstep
  exact hstep

/-- Settles O32: placing an element makes the state one in which a step begins it, with a frame decoded from its own encoding. -/
theorem placedElementsRun : Obligations.PlacedElementsRun := by
  intro i s hw
  cases i with
  | up rid ch | down rid ch | stop rid ch | learn rid ch | pair rid ch | chdir rid ch =>
    exact (step_withRequest hw _ rid ch).trans (congrArg (exec · _) (decodeCommand_requestWord ..))
  | reserved6 | reserved7 =>
    exact (step_withRequest hw _ 0#16 0#8).trans (congrArg (exec · _) (decodeCommand_requestWord ..))
  | frameUpPrimary p rid ch => exact step_beforeFrame hw (by decide) (decodeOfEncode (.frameUpPrimary p rid ch))
  | frameUpConfirm p rid ch => exact step_beforeFrame hw (by decide) (decodeOfEncode (.frameUpConfirm p rid ch))
  | frameDownPrimary p rid ch => exact step_beforeFrame hw (by decide) (decodeOfEncode (.frameDownPrimary p rid ch))
  | frameDownConfirm p rid ch => exact step_beforeFrame hw (by decide) (decodeOfEncode (.frameDownConfirm p rid ch))
  | frameStop p rid ch => exact step_beforeFrame hw (by decide) (decodeOfEncode (.frameStop p rid ch))
  | frameLearn p rid ch => exact step_beforeFrame hw (by decide) (decodeOfEncode (.frameLearn p rid ch))
  | sync => exact step_beforeSync hw
  | bit0 => exact step_beforeBit hw false
  | bit1 => exact step_beforeBit hw true
  | gap => exact step_gapBegins (s := placeElement .gap s) hw rfl rfl rfl rfl
  | waitInterpress =>
    exact step_nextWait (s := s.beforeStep 0#3) hw rfl rfl (.inr ⟨rfl, rfl, by simp [State.beforeStep]⟩) (w := .interpress) rfl
  | waitFinal =>
    exact step_nextWait (s := s.beforeStep 2#3) hw rfl rfl (.inr ⟨rfl, rfl, by simp [State.beforeStep]⟩) (w := .final) rfl

end Sys2Proof.Machine
end

section
/-!
PROOF. Reset (70_reset_and_hazards.md rules R160, R161).
-/

namespace Sys2Proof.Machine

variable {s : State}

/-- Settles O37: the reset value of each register, by definition. -/
theorem resetStateRegisters : Obligations.ResetStateRegisters := fun _ _ =>
  ⟨rfl, rfl, rfl, rfl, rfl, rfl, rfl, rfl, rfl, rfl, rfl, rfl, rfl, rfl⟩

@[simp] theorem resetOf_params (c : Config) (ins : List Ports) : (State.resetOf c ins).params = c := rfl
@[simp] theorem resetOf_inputs (c : Config) (ins : List Ports) : (State.resetOf c ins).inputs = ins := rfl

/-- A reset over `k + 1` listed ticks: one at the present tick, and over the `k` after it. -/
theorem resetHeld_succ {k : Nat} {ins : List Ports} (hk : k < ins.length) (hr : ∀ p ∈ ins.take (k + 1), p.rst = true) :
    (ins.headD Ports.quiet).rst = true ∧ ∀ p ∈ ins.tail.take k, p.rst = true := by
  cases ins with
  | nil => simp at hk
  | cons p rest => simpa using hr

/-- A reset that is held gives the reset state again at each of its ticks. -/
theorem runTicks_resetHeld {k : Nat} (hw : s.params.wf = true) (hk : k < s.inputs.length)
    (hr : ∀ p ∈ s.inputs.take (k + 1), p.rst = true) :
    runTicks (k + 1) s = .next (State.resetOf s.params (s.inputs.drop (k + 1))) := by
  induction k generalizing s with
  | zero => rw [runTicks_one (step_reset hw (resetHeld_succ hk hr).1), List.drop_one]
  | succ k ih =>
    obtain ⟨hnow, hlater⟩ := resetHeld_succ hk hr
    have hrest := ih (s := State.resetOf s.params s.inputs.tail) hw (by simpa using Nat.lt_sub_of_add_lt hk) hlater
    rw [runTicks_succ (step_reset hw hnow), hrest, resetOf_params, resetOf_inputs, List.drop_tail]

/-- Settles O36: reset is the first case of a tick, and without it an idle block that is not started holds. -/
theorem resetGivesTheResetState : Obligations.ResetGivesTheResetState :=
  ⟨fun _ => step_reset, fun _ _ => runTicks_resetHeld, fun s p hw hr hp hs =>
    step_of_case (s := { s with inputs := p :: s.inputs }) hw (.idleHold hr hp hs)⟩

end Sys2Proof.Machine
end

section
/-!
PROOF. The same command from any two idle states (70_reset_and_hazards.md rule R182, 10_state.md rule R31).
-/

namespace Sys2Proof.Machine

variable {s : State}

/-- What the pin and the two status outputs show `j + 1` ticks after the request, up to completion: a function of the command's wave. -/
theorem outputs_of_command {cmd : Selector} {rid : RemoteId} {ch : ChannelPort} {j : Nat} (hw : s.params.wf = true)
    (hp : s.phase = .idle) (hreq : s.Requests cmd rid ch) (hc : cmd.toNat ≤ 5) (hr : s.NoReset (j + 1)) :
    let w := wave s.params.ticksPerUs (commandTrace cmd (buildHeader s.params rid ch) s.params.repeatCount.toNat)
    j ≤ w.length → ∃ u, runTicks (j + 1) s = .next u ∧
      u.tx = w[j]?.getD false ∧ u.busy = decide (j < w.length) ∧ u.done = decide (j = w.length) := by
  intro w hj
  obtain ⟨-, -, hwave, hend⟩ := commandsPutTheirTraceOnThePin.1 s cmd rid ch hw hp hreq hc
  rcases Nat.lt_or_eq_of_le hj with hlt | rfl
  · obtain ⟨u, hrun, htx, hb, hdone, -⟩ := hwave j hlt hr
    exact ⟨u, hrun, by rw [htx, List.getElem?_eq_getElem hlt]; rfl, by simp [hb, hlt], by simp [hdone, hlt.ne]⟩
  · exact ⟨_, hend hr, by simp [State.canonicalIdle, State.resetOf], by simp [State.canonicalIdle, State.resetOf, State.busy],
      by simp [State.canonicalIdle]⟩

/-- Settles O52: the header, and with it the command's wave, is the same for both. -/
theorem repeatedCommandsGiveTheSamePinTrace : Obligations.RepeatedCommandsGiveTheSamePinTrace := by
  intro s s' cmd rid ch ch' j hw hparams hp hp' hreq hreq' hc hch hj hr hr'
  have hhdr : buildHeader s'.params rid ch' = buildHeader s.params rid ch := by
    rw [hparams, buildHeader, buildHeader, maskChannel_eq, maskChannel_eq, hch]
  rw [← wave_length] at hj
  obtain ⟨u, hrun, htx, hb, hdone⟩ := outputs_of_command hw hp hreq hc hr hj
  obtain ⟨u', hrun', htx', hb', hdone'⟩ := outputs_of_command (hparams ▸ hw) hp' hreq' hc hr' (by rwa [hhdr, hparams])
  rw [hhdr, hparams] at htx' hb' hdone'
  exact ⟨u, u', hrun, hrun', htx.trans htx'.symm, hb.trans hb'.symm, hdone.trans hdone'.symm⟩

end Sys2Proof.Machine
end

section
/-!
PROOF. The words that 30_encoding.md (sections 1 to 4) and 95_test_vectors.md (section 2.2) write out are the encodings of the elements
they stand for.
-/

namespace Sys2Proof

/-- Bits that an element encodes to decode to that element. -/
theorem decode_of_encode_eq {fm : Format} {w : Nat} {i : Instr} (h : encode i = ⟨fm, w⟩) : decode fm w = .ok i := by
  simpa [h] using decodeOfEncode i

/-- Settles O4: each word is the encoding of its element, which the decoder undoes. -/
theorem wordsFromTheSpecDecode : Obligations.WordsFromTheSpecDecode := by
  unfold Obligations.WordsFromTheSpecDecode
  and_intros <;> exact decode_of_encode_eq (by decide)

end Sys2Proof
end
